-- ==== Sys2Proof/Word.lean ====
section
/-! DEFINITION. The word types of the part and its fixed capacities. -/

namespace Sys2Proof

/-- One byte. -/
abbrev Byte := BitVec 8

/-- A block: the unit of disk addressing, 512 bytes (00_scope.md, Terms). Byte `i` is bits `8 i` to
`8 i + 7` (log 2). -/
abbrev Block := BitVec 4096

/-- A 256-bit key or key source (R75). Byte 0 is the least significant byte (log 2). -/
abbrev Key := BitVec 256

/-- The 128 random bits of a slot (R76), the byte drawn first least significant (log 2). -/
abbrev Nonce := BitVec 128

/-- A transit key record of 64 bytes (R82, chapter 12), byte 0 least significant (log 2). -/
abbrev KeyRecord := BitVec 512

/-- 512 zero bytes: the content of a zero-filled block (00_scope.md, Terms; R97). -/
abbrev zeroBlock : Block := 0#4096

/-- The largest value of a 32-bit count (R67, R49, R149). -/
abbrev maxCount : Nat := 4294967295

/-- Tags of the tag store (R47). -/
abbrev tagStoreSize : Nat := 131072

/-- The largest ring size R (R43). -/
abbrev maxRing : Nat := 131072

/-- The ordinal limit of a recording slot (R3). -/
abbrev maxOrdinal : Nat := 1048576

/-- Entries of the extent map (R5). -/
abbrev extentCount : Nat := 2048

/-- The largest partition length, in chunks (R1). -/
abbrev maxPartition : Nat := 16777216

end Sys2Proof
end

