-- ==== Sys2Proof/Syntax.lean ====
section
/-! DEFINITION. The commands of the part: one constructor of `Instr` for each row of spec/opcode_table.json. -/

namespace Sys2Proof

/-- The speeds a serial ATA port negotiates (R178). -/
inductive LinkSpeed where
  | gen1 -- 1.5 Gb/s
  | gen2 -- 3 Gb/s
  | gen3 -- 6 Gb/s
  deriving DecidableEq, Repr

/-- Who owns a command on the disk port or a burst in the engine: a transfer, by its tag, or the job
unit (R108, R119). -/
inductive Owner where
  | tag (n : Nat)
  | job
  deriving DecidableEq, Repr

/-- The direction in which an OTHER command moves data, if it moves any (R99). -/
inductive DataDirection where
  | none
  | toDisk
  | fromDisk
  deriving DecidableEq, Repr

/-- An entry description of EXTENT-LOAD (R13), the fields as the request carries them. -/
structure ExtentDesc where
  index : Nat
  base : Nat
  exponent : Nat
  slot : Nat
  firstOrdinal : Nat
  deriving DecidableEq, Repr

/-- A command of the part. The fields of the request rows are those the request block carries, as
numbers; `number` is the request number of the header (R166). A request row stands for the arrival of
its request block on the MREQ transfer in the table (log 13). -/
inductive Instr where
  /-- POWER_ON (R178): power is applied or the reset input released; the controller port's link is
  established at this speed. -/
  | powerOn (speed : LinkSpeed)
  /-- POWER_LOSS (R39, R178). -/
  | powerLoss
  /-- SLOT_LOAD (R40): the next load event. -/
  | slotLoad
  /-- CONTROLLER_LINK_RESET (R104): received, and the link established again at this speed (R178). -/
  | controllerLinkReset (speed : LinkSpeed)
  /-- TICK (R66). -/
  | tick
  /-- MINUTE_EVENT (R67). -/
  | minuteEvent
  /-- SWEEP_PASS (R58). -/
  | sweepPass
  /-- SWEEP_END (R59). -/
  | sweepEnd
  /-- COMMAND_TIMEOUT (R124): the commands of these owners time out at one tick. -/
  | commandTimeout (owners : List Owner)
  /-- DISK_LINK_RESET_END (R125): the disk reports ready, the link negotiated at this speed. -/
  | diskLinkResetEnd (speed : LinkSpeed)
  /-- DISK_LINK_RESET_FAIL (R125). -/
  | diskLinkResetFail
  /-- LINK_LOSS (R129). -/
  | linkLoss
  /-- COMMAND_SUCCESS (R122). -/
  | commandSuccess (owner : Owner)
  /-- COMMAND_FAILURE (R122), with the failing block when the disk reports one (R92). -/
  | commandFailure (owner : Owner) (failing : Option Nat)
  /-- DATA_FROM_CONTROLLER (R89, R163): the next block of a WRITE, an MREQ or an OTHER. -/
  | dataFromController (tag : Nat) (data : Block)
  /-- DATA_FROM_DISK (R89): the next block of a READ, of the job's READ or of an OTHER. -/
  | dataFromDisk (owner : Owner) (data : Block)
  /-- CIPHERING_END (R111). -/
  | cipheringEnd
  /-- BLOCK_DELIVERY (R89): the controller port takes the next waiting block of this transfer. -/
  | blockDelivery (tag : Nat)
  /-- BLOCK_TO_DISK (R89): the disk port takes the next waiting block. -/
  | blockToDisk (owner : Owner)
  /-- STORE_WRITE_END (R38). -/
  | storeWriteEnd
  /-- READ (R87): tag, first block, count field (0 means 65,536). -/
  | read (tag first countField : Nat)
  /-- WRITE (R87). -/
  | write (tag first countField : Nat)
  /-- FLUSH (R101). -/
  | flush (tag : Nat)
  /-- OTHER (R86): any other disk command, with its command code, the direction of its data, and its
  first block and count field when it names blocks. -/
  | other (tag code : Nat) (direction : DataDirection) (blocks : Option (Nat × Nat))
  /-- MREQ (R162). -/
  | mreq (tag countField : Nat)
  /-- MRSP (R164). -/
  | mrsp (tag countField : Nat)
  /-- IDENT (R171). -/
  | ident (number : Nat)
  /-- MODE (R168): the target as a mode code. -/
  | mode (number target : Nat)
  /-- SETUP (R170). -/
  | setup (number first length depth bgLimit bgShare timeout warnLevel : Nat)
  /-- SETUP-READ (R170). -/
  | setupRead (number : Nat)
  /-- RESTART (R172). -/
  | restart (number : Nat)
  /-- NOTICE-TAKE (R174). -/
  | noticeTake (number : Nat)
  /-- CLOCK-READ (R72). -/
  | clockRead (number : Nat)
  /-- CLOCK-ADVANCE (R73). -/
  | clockAdvance (number target : Nat)
  /-- SLOT-OPEN (R24): slot number or FFh for "any", class code, expiry minute or its absence. -/
  | slotOpen (number slot cls : Nat) (expiry : Option Nat)
  /-- SLOT-FINISH (R26). -/
  | slotFinish (number slot : Nat)
  /-- SLOT-DROP (R30, R62). -/
  | slotDrop (number slot : Nat)
  /-- SLOT-VIEW (R34, R64). -/
  | slotView (number slot : Nat)
  /-- SLOT-SCAN (R35). -/
  | slotScan (number start count : Nat)
  /-- RING-OPEN (R45): slot number or FFh for "any", class code, window, ring size. -/
  | ringOpen (number slot cls window size : Nat)
  /-- EXTENT-LOAD (R13): the item count of the header and the descriptions the body holds. -/
  | extentLoad (number itemCount : Nat) (descs : List ExtentDesc)
  /-- EXTENT-CLEAR (R15): the item count of the header and the indices the body holds. -/
  | extentClear (number itemCount : Nat) (indices : List Nat)
  /-- EXTENT-SCAN (R17). -/
  | extentScan (number start count : Nat)
  /-- JOB-ADOPT (R135). -/
  | jobAdopt (number source firstSource count target firstTarget : Nat)
  /-- JOB-CANCEL (R146). -/
  | jobCancel (number job : Nat)
  /-- JOB-SCAN (R147). -/
  | jobScan (number : Nat)
  /-- EXPORT-OPEN (R150): mode code, slot number, transit key record. -/
  | exportOpen (number mode slot : Nat) (record : KeyRecord)
  /-- EXPORT-END (R157). -/
  | exportEnd (number : Nat)
  /-- EXPORT-VIEW (R160). -/
  | exportView (number : Nat)
  /-- LINK-VIEW (R130). -/
  | linkView (number : Nat)
  /-- LINK-RESTORE (R131). -/
  | linkRestore (number : Nat)
  deriving DecidableEq, Repr

end Sys2Proof
end

