-- ==== Sys2Proof/Decode.lean ====
section
/-! DEFINITION. The command a table word spells. The K4 is a block: spec/opcode_table.json gives no row any
bits ("fields": [] on all 51 rows), so no word spells a command. -/

namespace Sys2Proof

/-- The command that a word of `nbits` bits spells by the table's bits: none, since the table gives no row
any bits. Request blocks are read from their 512 bytes by `Machine.State.takeBlock` (R163, R166). -/
def decodeTableWord (_nbits _w : Nat) : Option Instr := none

end Sys2Proof
end

