-- ==== Sys2Proof/Config.lean ====
section
/-! DEFINITION. What is fixed outside the manual: free values, constants without a body. -/

namespace Sys2Proof.Config

/-- The root key, fused at manufacture (R75). A free value (log 3). -/
opaque rootKey : Key

/-- The transport key, fused at manufacture (R75). A free value (log 3). -/
opaque transportKey : Key

/-- The 128 bits the random source gives at its `n`-th draw (R76). A free value (log 4). -/
opaque randomBits (n : Nat) : Nonce

/-- The block named by the completion of a READ that ends by TIMEOUT, ABORTED or CUTOFF when every one of
its blocks has been delivered: R102 names "its first block not delivered" and there is none. A free value
(log 17). -/
opaque noUndeliveredBlock (first count : Nat) : Nat

end Sys2Proof.Config
end

