-- ==== Sys2Proof/Machine/Bytes.lean ====
section
/-! DEFINITION. Bytes of bit vectors and little-endian numbers (R176; log 2). -/

namespace Sys2Proof.Machine

/-- The `n` bytes of a number, least significant first (R176). -/
def le (n x : Nat) : List Byte := (List.range n).map fun i => BitVec.ofNat 8 (x >>> (8 * i))

/-- The number whose little-endian bytes these are (R176). -/
def leNat : List Byte → Nat
  | [] => 0
  | b :: rest => b.toNat + 256 * leNat rest

/-- Byte `i` of a bit vector. -/
def byteAt {w : Nat} (x : BitVec w) (i : Nat) : Byte := x.extractLsb' (8 * i) 8

/-- The first `n` bytes of a bit vector, byte 0 first. -/
def bytesOf {w : Nat} (n : Nat) (x : BitVec w) : List Byte := (List.range n).map (byteAt x)

/-- The bit vector with these bytes, byte 0 least significant; bytes beyond its width are dropped. -/
def ofBytes (w : Nat) (bytes : List Byte) : BitVec w := BitVec.ofNat w (leNat bytes)

/-- The little-endian number in bytes `off` to `off + n - 1` of a block (R166). -/
def field {w : Nat} (x : BitVec w) (off n : Nat) : Nat := (x.extractLsb' (8 * off) (8 * n)).toNat

/-- An optional field: its presence byte, then the field, 0 when absent (R166, R176). -/
def leOption (n : Nat) : Option Nat → List Byte
  | none => 0 :: le n 0
  | some x => 1 :: le n x

/-- A flag is one byte holding 0 or 1 (R176). -/
def flagByte (b : Bool) : List Byte := [if b then 1 else 0]

end Sys2Proof.Machine
end

