-- ==== Sys2Proof/Machine/Table.lean ====
section
/-! DEFINITION. Sparse tables in one canonical form: the extent map, the slot tables, the tag store and the
slot store (log 31). -/

namespace Sys2Proof.Machine

/-- A table: (index, value) pairs, indices strictly rising, no value equal to what an unlisted index
reads as. -/
abbrev Table (α : Type) := List (Nat × α)

/-- The value at index `i`; an unlisted index reads as `d`. -/
def Table.get {α : Type} (d : α) : Table α → Nat → α
  | [], _ => d
  | (k, v) :: t, i => if k = i then v else Table.get d t i

/-- The entries without those of index `i`. -/
def Table.erase {α : Type} : Table α → Nat → Table α
  | [], _ => []
  | (k, v) :: t, i => if k = i then Table.erase t i else (k, v) :: Table.erase t i

/-- `(i, v)` put before the first entry of a larger index. -/
def Table.insert {α : Type} : Table α → Nat → α → Table α
  | [], i, v => [(i, v)]
  | (k, w) :: t, i, v => if i < k then (i, v) :: (k, w) :: t else (k, w) :: Table.insert t i v

/-- Write `v` at index `i`, keeping the canonical form: writing the value of an unlisted index removes
the entry. -/
def Table.put {α : Type} [DecidableEq α] (d : α) (t : Table α) (i : Nat) (v : α) : Table α :=
  if v = d then Table.erase t i else Table.insert (Table.erase t i) i v

/-- The canonical form. -/
def Table.wf {α : Type} [DecidableEq α] (d : α) : Table α → Bool
  | [] => true
  | (k, v) :: t => decide (v ≠ d) && t.all (fun e => k < e.1) && Table.wf d t

end Sys2Proof.Machine
end

