-- ==== Sys2Proof/Machine/State.lean ====
section
/-! DEFINITION. The state of the part as plain data, the reasons a command can stop, and the state right
after reset. -/

namespace Sys2Proof.Machine

/-! ### Reasons a step can stop -/

/-- Faults. The spec gives no event that stops the part, so no command ends in a fault and this type has no
constructor. -/
inductive Fault where
  deriving DecidableEq, Repr

/-- Refusals. -/
inductive Refusal where
  /-- Raised only by `exec` for a command without a meaning (safe); no arm of this model raises it. -/
  | notModelled (mnemonic : String)
  deriving DecidableEq, Repr

/-! ### Names of states, codes and reasons -/

/-- The modes of the part (R167). -/
inductive Mode where
  | starting | config | draining | run
  deriving DecidableEq, Repr

/-- Where the loading of the slot store stands: the time record is due, recording record `n` is due, a
RESTART is draining the store write queue, or nothing is to be loaded (R40, R41, R69). -/
inductive Loading where
  | finished | draining | timeRecord | slot (n : Nat)
  deriving DecidableEq, Repr

/-- The result codes of requests (chapter 12). -/
inductive Result where
  | ok | pending | badRequest | wrongMode | noSlot | slotState | cls | overlap | range | noRoom | badWrap
  | backward | queueFull | notFound | notSet | linkDown | busy
  deriving DecidableEq, Repr

/-- The status of a completion (R177). -/
inductive Status where
  | good | error
  deriving DecidableEq, Repr

/-- The completion reasons of a status ERROR (section 12.4). -/
inductive Reason where
  | unassigned | writeLocked | span | split | unwritten | expired | moved | outOfOrder | closed | diskError
  | timeout | aborted | cutoff | tagBusy | mgmtBusy | mgmtForm | notReady
  deriving DecidableEq, Repr

/-- The notice kinds (chapter 12). -/
inductive NoticeKind where
  | slotExpired | moveDone | moveEnded | jobDone | jobEnded | queueWarn | linkWarning | linkDegraded
  | linkCutoff | linkNormal | recordDamaged | clockLost
  deriving DecidableEq, Repr

/-- States of slots: a recording slot is EMPTY, OPEN, FINISHED, MOVING or ERASING (R20), a ring slot EMPTY,
RUNNING or ERASING (R43). -/
inductive SlotState where
  | empty | opened | finished | moving | erasing | running
  deriving DecidableEq, Repr

/-- Usage classes (R21, R44). -/
inductive SlotClass where
  | free | once | never
  deriving DecidableEq, Repr

/-- States of an extent entry (R5). -/
inductive ExtentState where
  | empty | valid | retiring
  deriving DecidableEq, Repr

/-- States of an epoch (R49). -/
inductive EpochState where
  | live | sweeping
  deriving DecidableEq, Repr

/-- What a transfer is (R85). An OTHER command is kept with its code and direction, as it arrived. -/
inductive TransferKind where
  | read | write | flush | mreq | mrsp
  | other (code : Nat) (direction : DataDirection)
  deriving DecidableEq, Repr

/-- Handlings of a transfer (R85): PROTECTED, PASS-THROUGH, MANAGEMENT. -/
inductive Handling where
  | guarded | passThrough | management
  deriving DecidableEq, Repr

/-- States of a transfer (R85). -/
inductive TransferState where
  | queued | active | held | ending
  deriving DecidableEq, Repr

/-- States of the disk link (R119). -/
inductive LinkState where
  | up | resetting | down
  deriving DecidableEq, Repr

/-- Health states of the disk port (R127). -/
inductive HealthState where
  | normal | warning | degraded | cutoff
  deriving DecidableEq, Repr

/-- States of a job (R133). -/
inductive JobState where
  | waiting | starting | running | paused | ending
  deriving DecidableEq, Repr

/-- Stages of a job's current chunk (R133). -/
inductive JobStage where
  | idle | read | cipher | write
  deriving DecidableEq, Repr

/-- Outcomes of a job (R133). -/
inductive JobOutcome where
  | completed | aborted | notFound | slotState | diskError
  deriving DecidableEq, Repr

/-- States of the export session (R149). -/
inductive SessionState where
  | idle | active | ending
  deriving DecidableEq, Repr

/-- Modes of an export session (R149). -/
inductive ExportMode where
  | move | copy
  deriving DecidableEq, Repr

/-- How an export session ended (R149). -/
inductive EndCause where
  | completed | ended | closed
  deriving DecidableEq, Repr

/-- Where the minute count of the last power-on came from (R69, R70). -/
inductive RestoreSource where
  | intact | damaged
  deriving DecidableEq, Repr

/-! ### Records -/

/-- The setup values (R170). -/
structure Setup where
  first : Nat := 0
  length : Nat := 0
  depth : Nat := 8
  bgLimit : Nat := 1
  bgShare : Nat := 4
  timeout : Nat := 50
  warnLevel : Nat := 6
  deriving DecidableEq, Repr

/-- The details a notice carries (R173). -/
inductive NoticeDetails where
  | nothing
  | jobDone (copied lost overtaken : Nat)
  | jobEnded (outcome : JobOutcome) (chunk copied lost overtaken : Nat)
  deriving DecidableEq, Repr

/-- An entry of the notice list (R173). -/
structure Notice where
  kind : NoticeKind
  subject : Option Nat
  count : Nat
  details : NoticeDetails
  deriving DecidableEq, Repr

/-- What the request in progress waits for (R165). -/
inductive Wait where
  /-- the execution of the request at its own event -/
  | execution
  /-- SLOT-OPEN: the store write carrying the new record (R25) -/
  | slotOpen (slot : Nat)
  /-- SLOT-FINISH: the end of the last write in flight (R27) -/
  | finishPending (slot : Nat)
  /-- SLOT-FINISH: the store write carrying the FINISHED record (R26) -/
  | finishWrite (slot length : Nat)
  /-- SLOT-DROP: the EMPTY event of the slot (R29, R63) -/
  | drop (slot : Nat)
  /-- CLOCK-ADVANCE: the time record write carrying the target (R74) -/
  | clockAdvance
  /-- LINK-RESTORE: the end of the disk-link reset (R131) -/
  | linkRestore
  /-- EXPORT-END: the session's NONE event (R157) -/
  | exportEnd
  /-- RESTART: the CONFIG event (R172) -/
  | restart
  deriving DecidableEq, Repr

/-- The request in progress (R163): kind code, request number, what it waits for. -/
structure Request where
  kind : Nat
  number : Nat
  wait : Wait
  deriving DecidableEq, Repr

/-- The response block (R163, chapter 12): header fields and the body bytes written. -/
structure Response where
  kind : Nat
  number : Nat
  result : Result
  items : Nat := 0
  next : Nat := 0
  overflowed : Bool := false
  body : List Byte := []
  deriving DecidableEq, Repr

/-- The management unit (chapter 11). -/
structure Mgmt where
  mode : Mode := .starting
  loading : Loading := .timeRecord
  setup : Setup := {}
  request : Option Request := none
  response : Option Response := none
  notices : List Notice := []
  overflowed : Bool := false
  deriving DecidableEq, Repr

/-- The clock (chapter 4). `running` is set from the event that sets the minute count at power-on: no tick
comes before it (R66). -/
structure Clock where
  minutes : Nat := 0
  ticks : Nat := 0
  persisted : Option Nat := none
  source : RestoreSource := .intact
  running : Bool := false
  target : Option Nat := none
  deriving DecidableEq, Repr

/-- An extent entry (R5); the default is the EMPTY entry. -/
structure Extent where
  state : ExtentState := .empty
  base : Nat := 0
  exponent : Nat := 0
  slot : Nat := 0
  firstOrdinal : Nat := 0
  inUse : Nat := 0
  deriving DecidableEq, Repr

/-- A recording slot record (R20); the default is the EMPTY record with `changed` set, as after power-on
(R32). `erased` tells whether the erasure write of an ERASING slot has ended (R29). -/
structure RecSlot where
  state : SlotState := .empty
  cls : SlotClass := .free
  nonce : Nonce := 0
  high : Nat := 0
  length : Nat := 0
  expiry : Option Nat := none
  floor : Nat := 0
  persistedFloor : Nat := 0
  created : Nat := 0
  finishPending : Bool := false
  inFlight : Nat := 0
  changed : Bool := true
  persisting : Bool := false
  erased : Bool := false
  deriving DecidableEq, Repr

/-- An epoch of a ring slot (R49). -/
structure Epoch where
  serial : Nat
  sequence : Nat
  openMinute : Nat
  state : EpochState
  deriving DecidableEq, Repr

/-- A ring slot record (R43); the default is the EMPTY record with `changed` set (R65). `held` lists the
transfers waiting for the end of a sweep, each with the serial it awaits (R56). -/
structure RingSlot where
  state : SlotState := .empty
  cls : SlotClass := .free
  nonce : Nonce := 0
  window : Nat := 0
  epochLength : Nat := 0
  size : Nat := 0
  tagStart : Nat := 0
  epochs : List Epoch := []
  lastSerial : Option Nat := none
  sequence : Nat := 0
  held : List (Nat × Nat) := []
  changed : Bool := true
  deriving DecidableEq, Repr

/-- An entry of the sweep queue (R58). -/
structure Sweep where
  slot : Nat
  serial : Nat
  deriving DecidableEq, Repr

/-- The sweep in progress: `position` is the next ordinal to pass (R58). -/
structure RunningSweep where
  slot : Nat
  serial : Nat
  position : Nat
  deriving DecidableEq, Repr

/-- Who owns a derived key (R75). -/
inductive KeyOwner where
  | slot (n : Nat)
  | epoch (slot serial : Nat)
  | transit
  deriving DecidableEq, Repr

/-- The XTS key pair expanded from a key source (R79). -/
structure XtsPair where
  data : Key
  tweak : Key
  deriving DecidableEq, Repr

/-- An entry of the key unit (R75). -/
structure KeyEntry where
  owner : KeyOwner
  source : Key
  pair : XtsPair
  deriving DecidableEq, Repr

/-- Store states of a stored record (R36). -/
inductive StoredState where
  | empty | opened | finished
  deriving DecidableEq, Repr

/-- A stored recording record (R36); the default is the record as manufactured. -/
structure StoredRec where
  damaged : Bool := false
  state : StoredState := .empty
  cls : SlotClass := .free
  nonce : Nonce := 0
  high : Nat := 0
  length : Nat := 0
  expiry : Option Nat := none
  floor : Nat := 0
  created : Nat := 0
  deriving DecidableEq, Repr

/-- The stored time record (section 4.2). -/
structure StoredTime where
  damaged : Bool := false
  minutes : Nat := 0
  deriving DecidableEq, Repr

/-- The records of the slot store, by name (R37). -/
inductive RecordId where
  | slot (n : Nat)
  | time
  deriving DecidableEq, Repr

/-- The content a store write takes at its begin (R38). -/
inductive WriteContent where
  | slot (r : StoredRec)
  | time (minutes : Nat)
  deriving DecidableEq, Repr

/-- The store write in progress. `erasure`: it began with the slot ERASING (R29). `answers`: the request in
progress waits on the record and its demand came at or before the begin (R38). `floor`: the floor it carries, held by a recording
slot at the begin (R31); 0 for the time record. -/
structure StoreWrite where
  record : RecordId
  content : WriteContent
  erasure : Bool
  answers : Bool
  floor : Nat
  deriving DecidableEq, Repr

/-- The slot store and its writer (section 2.8). -/
structure SlotStore where
  records : Table StoredRec := []
  time : StoredTime := {}
  queue : List RecordId := []
  writer : Option StoreWrite := none
  deriving DecidableEq, Repr

/-- A fragment record (R7): `entry` is absent for an unassigned fragment. -/
structure Fragment where
  first : Nat
  count : Nat
  entry : Option Nat
  deriving DecidableEq, Repr

/-- What made a block that waits for hand-on: relayed, a zero block, ciphertext for the disk, deciphered
under a recording slot key, deciphered under an epoch key, or transit-enciphered (`last`: it has
block-in-chunk 255). R52, R98, R153 to R155 ask this. -/
inductive Origin where
  | relayed
  | zero
  | ciphertext
  | plain (slot ordinal : Nat)
  | epoch (slot serial : Nat)
  | transit (slot ordinal : Nat) (last : Bool)
  deriving DecidableEq, Repr

/-- A block waiting inside the part for hand-on (R89). -/
structure OutBlock where
  data : Block
  origin : Origin
  deriving DecidableEq, Repr

/-- A transfer record (R85), with what R89 to R94 imply: `arrived` blocks taken in, `input` those waiting for
a burst, `covered` those covered by decided bursts, `output` those waiting for hand-on, `ready` a requested
burst, `lastChunk` the chunk of the last taken burst, `writeSlots` the slots whose writes in flight it
raised (R22), `commandEnded` set when its disk command has ended with success. `drainHeld` is the
holding back of DRAINING (R100); the other two causes are a wait set that is not empty and the session's
held-back list. -/
structure Transfer where
  tag : Nat
  kind : TransferKind
  handling : Handling
  first : Option Nat := none
  count : Option Nat := none
  fragments : List Fragment := []
  state : TransferState
  drainHeld : Bool := false
  delivered : Nat := 0
  firstError : Option (Nat × Reason) := none
  waitSet : List Nat := []
  arrived : Nat := 0
  input : List Block := []
  covered : Nat := 0
  output : List OutBlock := []
  ready : Bool := false
  lastChunk : Option Nat := none
  writeSlots : List Nat := []
  commandEnded : Bool := false
  deriving DecidableEq, Repr

/-- What the engine computes, with the working copies of the keys (R81). -/
inductive Composition where
  | encipher (key : XtsPair)
  | decipher (key : XtsPair)
  | transit (slotKey transitKey : XtsPair)
  | adopt (sourceKey targetKey : XtsPair)
  deriving DecidableEq, Repr

/-- A burst in progress (R108): `first` is its first block address, or the burst's index in its chunk for
the job; `tweak` is the tweak of its first block (`targetTweak` the one in the target, for adoption);
`withdrawn` is set when R52, R98, R153 or R155 replaces its output by zero-fill. -/
structure Burst where
  owner : Owner
  first : Nat
  inputs : List Block
  composition : Composition
  tweak : Nat
  targetTweak : Nat := 0
  origins : List Origin
  cancellable : Bool
  withdrawn : Bool := false
  deriving DecidableEq, Repr

/-- The engine and its arbiter (chapter 7). -/
structure Engine where
  burst : Option Burst := none
  position : Nat := 15
  share : Nat := 0
  cancels : Nat := 0
  deriving DecidableEq, Repr

/-- An issue slot in use (R119). -/
structure Outstanding where
  owner : Owner
  stage : Option JobStage
  timeout : Option Nat
  deriving DecidableEq, Repr

/-- The disk port (chapter 8). `resetTicks` counts the ticks since the disk-link reset began (R125). -/
structure DiskPort where
  outstanding : List Outstanding := []
  link : LinkState := .resetting
  resetTicks : Nat := 0
  speed : Option LinkSpeed := none
  health : Nat := 0
  healthState : HealthState := .normal
  timeoutSeen : Bool := false
  failureSeen : Bool := false
  resetSeen : Bool := false
  deriving DecidableEq, Repr

/-- The fence of a job (R137): a serial, or NONE. -/
inductive Fence where
  | serial (n : Nat)
  | noEpoch
  deriving DecidableEq, Repr

/-- A job record (R133). -/
structure Job where
  number : Nat
  state : JobState := .waiting
  source : Nat
  firstSource : Nat
  count : Nat
  target : Nat
  firstTarget : Nat
  fence : Option Fence := none
  forcedSequence : Option Nat := none
  copied : Nat := 0
  lost : Nat := 0
  overtaken : Nat := 0
  done : Nat := 0
  stage : JobStage := .idle
  chunkEpoch : Option (Nat × Nat) := none
  outcome : Option JobOutcome := none
  deriving DecidableEq, Repr

/-- A job command waiting to be issued (R120): READ or WRITE of 256 blocks from `first`. -/
structure JobCommand where
  stage : JobStage
  first : Nat
  deriving DecidableEq, Repr

/-- The job unit (chapter 9) and the working state of the current chunk: `kept` source blocks, `recoded`
target blocks, the burst that waits, the command that waits, the extent reference held (R10), the blocks
of the WRITE sent. `lastNumber` is the last job number assigned, 0 before the first. -/
structure JobUnit where
  queue : List Job := []
  lastNumber : Nat := 0
  kept : List Block := []
  recoded : List Block := []
  burst : Option Nat := none
  command : Option JobCommand := none
  reference : Option Nat := none
  sent : Nat := 0
  deriving DecidableEq, Repr

/-- The export session record (R149). -/
structure Session where
  state : SessionState := .idle
  mode : Option ExportMode := none
  slot : Option Nat := none
  cursor : Option Nat := none
  advancePending : Bool := false
  chunksDelivered : Nat := 0
  keyPresent : Bool := false
  endCause : Option EndCause := none
  held : List (Nat × Nat) := []
  heldBack : List Nat := []
  deriving DecidableEq, Repr

/-- What the part sends on its two ports (log 26). -/
inductive PortItem where
  /-- a completion on the controller port with its five fields (R177): tag, status, reason code, block, and the notice-pending
  mark -/
  | completion (tag : Nat) (status : Status) (reason block : Nat) (mark : Bool)
  /-- a block delivered on the controller port (R89) -/
  | delivered (tag : Nat) (data : Block)
  /-- a transfer's command issued on the disk port (R89) -/
  | command (tag : Nat) (kind : TransferKind) (first count : Option Nat)
  /-- a job's chunk command issued on the disk port (R120) -/
  | jobCommand (stage : JobStage) (first : Nat)
  /-- a block sent on the disk port (R89) -/
  | toDisk (owner : Owner) (data : Block)
  deriving DecidableEq, Repr

/-- The state of the part. `pending` is the queue of commands that wait, first in first out (log 9); `sent` is
the record of what the ports have sent (log 26); `draws` counts the draws of the random source (log 4). -/
structure State where
  powered : Bool := true
  pending : List Instr := []
  sent : List PortItem := []
  draws : Nat := 0
  controllerSpeed : LinkSpeed := .gen3
  mgmt : Mgmt := {}
  clock : Clock := {}
  extents : Table Extent := []
  recs : Table RecSlot := []
  rings : Table RingSlot := []
  tags : Table (Option Nat) := []
  sweepQueue : List Sweep := []
  sweep : Option RunningSweep := none
  keys : List KeyEntry := []
  store : SlotStore := {}
  transfers : List Transfer := []
  issueQueue : List Nat := []
  engine : Engine := {}
  disk : DiskPort := {}
  jobs : JobUnit := {}
  session : Session := {}
  deriving DecidableEq, Repr

/-- The part right after power-on, as it left manufacture: STARTING, the first load event due, the disk link
being established, every table empty (R5, R20, R36, R43, R47, R65, R84, R85, R105, R118, R132, R148, R161,
R175; log 5, log 6, log 7, log 36, log 40). -/
def State.reset : State := {}

end Sys2Proof.Machine
end

