-- ==== Sys2Proof/Machine/Crypto.lean ====
section
/-! DEFINITION. Keys and ciphering (chapter 5): HMAC-SHA-256, AES-256, the XTS block cipher of R79, the key
derivations of R77 and R78, and the unwrap of a transit key record (R82). PRESUMED (log 1): the manual names
SHA-256, HMAC, AES-256 and the AES key wrap, and gives their algorithms nowhere; they are taken from FIPS 180-4,
RFC 2104, FIPS 197 and RFC 3394. -/

namespace Sys2Proof.Machine

/-! ### SHA-256 and HMAC -/

/-- The 64 round constants of SHA-256, constant `i` in bits `32 i` to `32 i + 31`: the first 32 bits of the fractional parts of
the cube roots of the first 64 primes. -/
def shaConstantTable : BitVec 2048 :=
  0xc67178f2bef9a3f7a4506ceb90befffa8cc7020884c8781478a5636f748f82ee682e6ff35b9cca4f4ed8aa4a391c0cb334b0bcb52748774c1e376c0819a4c116106aa070f40e3585d6990624d192e819c76c51a3c24b8b70a81a664ba2bfe8a192722c8581c2c92e766a0abb650a735453380d134d2c6dfc2e1b213827b70a851429296706ca6351d5a79147c6e00bf3bf597fc7b00327c8a831c66d983e515276f988da5cb0a9dc4a7484aa2de92c6f240ca1cc0fc19dc6efbe4786e49b69c1c19bf1749bdc06a780deb1fe72be5d74550c7dc3243185be12835b01d807aa98ab1c5ed5923f82a459f111f13956c25be9b5dba5b5c0fbcf71374491428a2f98

/-- The round constants in the order of the rounds. -/
def shaConstants : List (BitVec 32) := (List.range 64).map fun i => shaConstantTable.extractLsb' (32 * i) 32

/-- The eight working words of SHA-256. -/
structure ShaState where
  a : BitVec 32
  b : BitVec 32
  c : BitVec 32
  d : BitVec 32
  e : BitVec 32
  f : BitVec 32
  g : BitVec 32
  h : BitVec 32
  deriving DecidableEq, Repr

/-- The initial hash value of SHA-256. -/
def shaInit : ShaState :=
  ⟨0x6a09e667, 0xbb67ae85, 0x3c6ef372, 0xa54ff53a, 0x510e527f, 0x9b05688c, 0x1f83d9ab, 0x5be0cd19⟩

/-- The next word of the message schedule from the last sixteen. -/
def shaNextWord (w : List (BitVec 32)) : BitVec 32 :=
  let w1 := w.getD 1 0
  let w14 := w.getD 14 0
  let s0 := w1.rotateRight 7 ^^^ w1.rotateRight 18 ^^^ (w1 >>> 3)
  let s1 := w14.rotateRight 17 ^^^ w14.rotateRight 19 ^^^ (w14 >>> 10)
  w.getD 0 0 + s0 + w.getD 9 0 + s1

/-- One round of the compression function. -/
def shaRound (s : ShaState) (k w : BitVec 32) : ShaState :=
  let s1 := s.e.rotateRight 6 ^^^ s.e.rotateRight 11 ^^^ s.e.rotateRight 25
  let ch := (s.e &&& s.f) ^^^ (~~~s.e &&& s.g)
  let t1 := s.h + s1 + ch + k + w
  let s0 := s.a.rotateRight 2 ^^^ s.a.rotateRight 13 ^^^ s.a.rotateRight 22
  let maj := (s.a &&& s.b) ^^^ (s.a &&& s.c) ^^^ (s.b &&& s.c)
  ⟨t1 + (s0 + maj), s.a, s.b, s.c, s.d + t1, s.e, s.f, s.g⟩

/-- The rounds over the constants, the schedule kept as a window of sixteen words. -/
def shaRounds : List (BitVec 32) → List (BitVec 32) → ShaState → ShaState
  | [], _, s => s
  | k :: ks, w, s => shaRounds ks (w.tail ++ [shaNextWord w]) (shaRound s k (w.headD 0))

/-- The compression function on sixteen message words. -/
def shaCompress (s : ShaState) (w : List (BitVec 32)) : ShaState :=
  let r := shaRounds shaConstants w s
  ⟨s.a + r.a, s.b + r.b, s.c + r.c, s.d + r.d, s.e + r.e, s.f + r.f, s.g + r.g, s.h + r.h⟩

/-- The big-endian 32-bit words of a byte sequence. -/
def bigEndianWords : List Byte → List (BitVec 32)
  | a :: b :: c :: d :: rest => (a ++ b ++ c ++ d : BitVec 32) :: bigEndianWords rest
  | _ => []

/-- The padding of SHA-256 to whole 64-byte groups. -/
def shaPad (m : List Byte) : List Byte :=
  m ++ [0x80] ++ List.replicate ((119 - m.length % 64) % 64) 0 ++ (le 8 (8 * m.length)).reverse

/-- Compress each sixteen words in turn; `n` bounds the number of groups. -/
def shaGroups : Nat → List (BitVec 32) → ShaState → ShaState
  | 0, _, s => s
  | _ + 1, [], s => s
  | n + 1, w, s => shaGroups n (w.drop 16) (shaCompress s (w.take 16))

/-- The four bytes of a word, most significant first. -/
def bigEndianBytes (w : BitVec 32) : List Byte := (bytesOf 4 w).reverse

/-- SHA-256 of a byte sequence: its 32 bytes. -/
def sha256 (m : List Byte) : List Byte :=
  let w := bigEndianWords (shaPad m)
  let s := shaGroups (w.length / 16) w shaInit
  bigEndianBytes s.a ++ bigEndianBytes s.b ++ bigEndianBytes s.c ++ bigEndianBytes s.d
    ++ bigEndianBytes s.e ++ bigEndianBytes s.f ++ bigEndianBytes s.g ++ bigEndianBytes s.h

/-- HMAC-SHA-256 under a 256-bit key, as a 256-bit value (section 5.3: "the key named first is the HMAC
key, and the text named second is the message"). -/
def hmac (key : Key) (message : List Byte) : Key :=
  let k := bytesOf 32 key ++ List.replicate 32 0
  let inner := sha256 (k.map (· ^^^ 0x36) ++ message)
  ofBytes 256 (sha256 (k.map (· ^^^ 0x5c) ++ inner))

/-- The ASCII bytes of a text, without a terminating byte (section 5.3). -/
def ascii (text : String) : List Byte := text.toList.map fun ch => BitVec.ofNat 8 ch.toNat

/-! ### AES-256 -/

/-- The S-box of AES, entry `i` in byte `i`. -/
def sboxTable : BitVec 2048 :=
  0x16bb54b00f2d99416842e6bf0d89a18cdf2855cee9871e9b948ed9691198f8e19e1dc186b95735610ef6034866b53e708a8bbd4b1f74dde8c6b4a61c2e2578ba08ae7a65eaf4566ca94ed58d6d37c8e779e4959162acd3c25c2406490a3a32e0db0b5ede14b8ee4688902a22dc4f816073195d643d7ea7c41744975fec130ccdd2f3ff1021dab6bcf5389d928f40a351a89f3c507f02f94585334d43fbaaefd0cf584c4a39becb6a5bb1fc20ed00d153842fe329b3d63b52a05a6e1b1a2c830975b227ebe28012079a059618c323c7041531d871f1e5a534ccf73f362693fdb7c072a49cafa2d4adf04759fa7dc982ca76abd7fe2b670130c56f6bf27b777c63

/-- The inverse S-box of AES, entry `i` in byte `i`. -/
def invSboxTable : BitVec 2048 :=
  0x7d0c2155631469e126d677ba7e042b17619953833cbbebc8b0f52aae4d3be0a0ef9cc9939f7ae52d0d4ab519a97f51605fec8027591012b131c7078833a8dd1ff45acd78fec0db9a2079d2c64b3e56fc1bbe18aa0e62b76f89c5291d711af1476edf751ce837f9e28535ade72274ac9673e6b4f0cecff297eadc674f4111913a6b8a130103bdafc1020f3fca8f1e2cd00645b3b80558e4f70ad3bc8c00abd890849d8da75746155edab9edfd5048706c92b6655dcc5ca4d41698688664f6f87225d18b6d49a25b76b224d92866a12e084ec3fa420b954cee3d23c2a632947b54cbe9dec444438e3487ff2f9b8239e37cfbd7f3819ea340bf38a53630d56a0952

/-- SubBytes of one byte. -/
def subByte (x : Byte) : Byte := byteAt sboxTable x.toNat

/-- InvSubBytes of one byte. -/
def invSubByte (x : Byte) : Byte := byteAt invSboxTable x.toNat

/-- Multiplication by x in the field of AES. -/
def xtime (x : Byte) : Byte := (x <<< 1) ^^^ (if x.msb then 0x1b else 0)

/-- A column of the AES state, or a word of the key schedule. -/
structure AesColumn where
  r0 : Byte
  r1 : Byte
  r2 : Byte
  r3 : Byte
  deriving DecidableEq, Repr

/-- The AES state: four columns. -/
structure AesState where
  c0 : AesColumn
  c1 : AesColumn
  c2 : AesColumn
  c3 : AesColumn
  deriving DecidableEq, Repr

/-- A function of bytes on a column. -/
def mapColumn (f : Byte → Byte) (c : AesColumn) : AesColumn := ⟨f c.r0, f c.r1, f c.r2, f c.r3⟩

/-- Exclusive-or of two columns. -/
def xorColumn (c d : AesColumn) : AesColumn := ⟨c.r0 ^^^ d.r0, c.r1 ^^^ d.r1, c.r2 ^^^ d.r2, c.r3 ^^^ d.r3⟩

/-- A function of columns on the state. -/
def mapState (f : AesColumn → AesColumn) (s : AesState) : AesState := ⟨f s.c0, f s.c1, f s.c2, f s.c3⟩

/-- AddRoundKey. -/
def addRoundKey (k s : AesState) : AesState :=
  ⟨xorColumn s.c0 k.c0, xorColumn s.c1 k.c1, xorColumn s.c2 k.c2, xorColumn s.c3 k.c3⟩

/-- ShiftRows. -/
def shiftRows (s : AesState) : AesState :=
  ⟨⟨s.c0.r0, s.c1.r1, s.c2.r2, s.c3.r3⟩, ⟨s.c1.r0, s.c2.r1, s.c3.r2, s.c0.r3⟩,
   ⟨s.c2.r0, s.c3.r1, s.c0.r2, s.c1.r3⟩, ⟨s.c3.r0, s.c0.r1, s.c1.r2, s.c2.r3⟩⟩

/-- InvShiftRows. -/
def invShiftRows (s : AesState) : AesState :=
  ⟨⟨s.c0.r0, s.c3.r1, s.c2.r2, s.c1.r3⟩, ⟨s.c1.r0, s.c0.r1, s.c3.r2, s.c2.r3⟩,
   ⟨s.c2.r0, s.c1.r1, s.c0.r2, s.c3.r3⟩, ⟨s.c3.r0, s.c2.r1, s.c1.r2, s.c0.r3⟩⟩

/-- Multiplication by 3, 9, 11, 13 and 14 in the field of AES. -/
def times3 (x : Byte) : Byte := xtime x ^^^ x
@[inherit_doc times3] def times9 (x : Byte) : Byte := xtime (xtime (xtime x)) ^^^ x
@[inherit_doc times3] def times11 (x : Byte) : Byte := xtime (xtime (xtime x)) ^^^ xtime x ^^^ x
@[inherit_doc times3] def times13 (x : Byte) : Byte := xtime (xtime (xtime x)) ^^^ xtime (xtime x) ^^^ x
@[inherit_doc times3] def times14 (x : Byte) : Byte := xtime (xtime (xtime x)) ^^^ xtime (xtime x) ^^^ xtime x

/-- MixColumns of one column. -/
def mixColumn (c : AesColumn) : AesColumn :=
  ⟨xtime c.r0 ^^^ times3 c.r1 ^^^ c.r2 ^^^ c.r3, c.r0 ^^^ xtime c.r1 ^^^ times3 c.r2 ^^^ c.r3,
   c.r0 ^^^ c.r1 ^^^ xtime c.r2 ^^^ times3 c.r3, times3 c.r0 ^^^ c.r1 ^^^ c.r2 ^^^ xtime c.r3⟩

/-- InvMixColumns of one column. -/
def invMixColumn (c : AesColumn) : AesColumn :=
  ⟨times14 c.r0 ^^^ times11 c.r1 ^^^ times13 c.r2 ^^^ times9 c.r3,
   times9 c.r0 ^^^ times14 c.r1 ^^^ times11 c.r2 ^^^ times13 c.r3,
   times13 c.r0 ^^^ times9 c.r1 ^^^ times14 c.r2 ^^^ times11 c.r3,
   times11 c.r0 ^^^ times13 c.r1 ^^^ times9 c.r2 ^^^ times14 c.r3⟩

/-- Column `i` of a byte string read four bytes a column. -/
def columnAt {w : Nat} (x : BitVec w) (i : Nat) : AesColumn :=
  ⟨byteAt x (4 * i), byteAt x (4 * i + 1), byteAt x (4 * i + 2), byteAt x (4 * i + 3)⟩

/-- The state of 16 bytes, column by column. -/
def toAesState (x : BitVec 128) : AesState := ⟨columnAt x 0, columnAt x 1, columnAt x 2, columnAt x 3⟩

/-- The four bytes of a column, row 0 least significant. -/
def columnBits (c : AesColumn) : BitVec 32 := c.r3 ++ c.r2 ++ c.r1 ++ c.r0

/-- The 16 bytes of a state. -/
def ofAesState (s : AesState) : BitVec 128 :=
  columnBits s.c3 ++ columnBits s.c2 ++ columnBits s.c1 ++ columnBits s.c0

/-- The key schedule word that follows the last eight, `i` being its index (at least 8). -/
def nextKeyColumn (i : Nat) (rcon : Byte) (last8 : List AesColumn) : AesColumn :=
  let zero : AesColumn := ⟨0, 0, 0, 0⟩
  let t := last8.getD 7 zero
  let t' :=
    if i % 8 = 0 then ⟨subByte t.r1 ^^^ rcon, subByte t.r2, subByte t.r3, subByte t.r0⟩
    else if i % 8 = 4 then mapColumn subByte t
    else t
  xorColumn (last8.getD 0 zero) t'

/-- `n` further words of the key schedule from index `i` on. -/
def keyColumns : Nat → Nat → Byte → List AesColumn → List AesColumn
  | 0, _, _, _ => []
  | n + 1, i, rcon, last8 =>
      let c := nextKeyColumn i rcon last8
      c :: keyColumns n (i + 1) (if i % 8 = 0 then xtime rcon else rcon) (last8.tail ++ [c])

/-- Four columns a round key. -/
def groupKeys : List AesColumn → List AesState
  | a :: b :: c :: d :: rest => ⟨a, b, c, d⟩ :: groupKeys rest
  | _ => []

/-- The fifteen round keys of AES-256. -/
def roundKeys (key : Key) : List AesState :=
  let first := (List.range 8).map (columnAt key)
  groupKeys (first ++ keyColumns 52 8 1 first)

/-- The rounds of encipherment after the first AddRoundKey; the last has no MixColumns. -/
def encipherRounds : List AesState → AesState → AesState
  | [], s => s
  | [k], s => addRoundKey k (shiftRows (mapState (mapColumn subByte) s))
  | k :: ks, s =>
      encipherRounds ks (addRoundKey k (mapState mixColumn (shiftRows (mapState (mapColumn subByte) s))))

/-- The rounds of decipherment, the round keys given in the order of encipherment. -/
def decipherRounds : List AesState → AesState → AesState
  | [], s => s
  | [k], s => mapState (mapColumn invSubByte) (invShiftRows (addRoundKey k s))
  | k :: ks, s =>
      mapState (mapColumn invSubByte)
        (invShiftRows (mapState invMixColumn (addRoundKey k (decipherRounds ks s))))

/-- AES-256 encipherment of 16 bytes. -/
def aesEncrypt (key : Key) (x : BitVec 128) : BitVec 128 :=
  match roundKeys key with
  | [] => x
  | k :: ks => ofAesState (encipherRounds ks (addRoundKey k (toAesState x)))

/-- AES-256 decipherment of 16 bytes. -/
def aesDecrypt (key : Key) (x : BitVec 128) : BitVec 128 :=
  match roundKeys key with
  | [] => x
  | k :: ks => ofAesState (addRoundKey k (decipherRounds ks (toAesState x)))

/-! ### The cipher of a block (R79) -/

/-- The XTS key pair expanded from a key source (R79). -/
def expandPair (source : Key) : XtsPair :=
  ⟨hmac source (ascii "xts-data"), hmac source (ascii "xts-tweak")⟩

/-- The next mask: the mask doubled in the binary field of 2^128 elements (R79, step 4). -/
def doubleMask (m : BitVec 128) : BitVec 128 := (m <<< 1) ^^^ (if m.msb then 0x87 else 0)

/-- The first mask: the tweak as a 16-byte little-endian number enciphered under the tweak key (R79,
step 1). -/
def firstMask (pair : XtsPair) (tweak : Nat) : BitVec 128 := aesEncrypt pair.tweak (BitVec.ofNat 128 tweak)

/-- The 32 pieces of 16 bytes of a block, in byte order (R79, step 2). -/
def blockPieces (p : Block) : List (BitVec 128) := (List.range 32).map fun i => p.extractLsb' (128 * i) 128

/-- The number whose 128-bit pieces these are, the first least significant. -/
def joinPieces : List (BitVec 128) → Nat
  | [] => 0
  | p :: rest => p.toNat + 2 ^ 128 * joinPieces rest

/-- Each piece combined with its mask, put through the cipher, and combined with the mask again (R79,
steps 3 and 4). -/
def maskPieces (cipher : BitVec 128 → BitVec 128) : BitVec 128 → List (BitVec 128) → List (BitVec 128)
  | _, [] => []
  | m, p :: rest => (cipher (p ^^^ m) ^^^ m) :: maskPieces cipher (doubleMask m) rest

/-- E(K, t, P) (R79). -/
def encipherBlock (pair : XtsPair) (tweak : Nat) (p : Block) : Block :=
  BitVec.ofNat 4096 (joinPieces (maskPieces (aesEncrypt pair.data) (firstMask pair tweak) (blockPieces p)))

/-- D(K, t, C) (R79). -/
def decipherBlock (pair : XtsPair) (tweak : Nat) (c : Block) : Block :=
  BitVec.ofNat 4096 (joinPieces (maskPieces (aesDecrypt pair.data) (firstMask pair tweak) (blockPieces c)))

/-- The output of a composition for one block, `t` its tweak and `t'` its tweak in the target (R81). -/
def compose (comp : Composition) (t t' : Nat) (b : Block) : Block :=
  match comp with
  | .encipher key => encipherBlock key t b
  | .decipher key => decipherBlock key t b
  | .transit slotKey transitKey => encipherBlock transitKey t (decipherBlock slotKey t b)
  | .adopt sourceKey targetKey => encipherBlock targetKey t' (decipherBlock sourceKey t b)

/-- The output of a burst's blocks, tweak by tweak (R81). -/
def composeBlocks (comp : Composition) : Nat → Nat → List Block → List Block
  | _, _, [] => []
  | t, t', b :: rest => compose comp t t' b :: composeBlocks comp (t + 1) (t' + 1) rest

/-! ### Key derivation -/

/-- A slot key (R77): "slot", the slot number, the nonce. -/
def deriveSlotKey (slot : Nat) (nonce : Nonce) : Key :=
  hmac Config.rootKey (ascii "slot" ++ le 1 slot ++ bytesOf 16 nonce)

/-- An epoch key (R78): "epoch", the sequence, the open minute. -/
def deriveEpochKey (ringKey : Key) (sequence openMinute : Nat) : Key :=
  hmac ringKey (ascii "epoch" ++ le 4 sequence ++ le 4 openMinute)

/-! ### The transit key record (section 5.7) -/

/-- The wrap key and the tag key, derived from the transport key. -/
def wrapKey : Key := hmac Config.transportKey (ascii "wrap")
@[inherit_doc wrapKey] def tagKey : Key := hmac Config.transportKey (ascii "tag")

/-- The integrity tag of a record: over byte 0 followed by bytes 8 to 47 (section 12.2). -/
def recordTag (r : KeyRecord) : BitVec 128 :=
  (hmac tagKey (bytesOf 1 r ++ bytesOf 40 (r.extractLsb' 64 320))).setWidth 128

/-- The registers of the AES key wrap over a 256-bit key: the check register and four 64-bit pieces, byte 0
least significant. -/
structure WrapState where
  a : BitVec 64
  r1 : BitVec 64
  r2 : BitVec 64
  r3 : BitVec 64
  r4 : BitVec 64
  deriving DecidableEq, Repr

/-- The step counter as a big-endian 64-bit number: its low byte is byte 7. -/
def wrapCounter (t : Nat) : BitVec 64 := BitVec.ofNat 64 (t <<< 56)

/-- One step of the wrap on (A, R) with counter `t`. -/
def wrapStep (key : Key) (t : Nat) (a r : BitVec 64) : BitVec 64 × BitVec 64 :=
  let b := aesEncrypt key (r ++ a)
  (b.extractLsb' 0 64 ^^^ wrapCounter t, b.extractLsb' 64 64)

/-- One step of the unwrap, undoing `wrapStep`. -/
def unwrapStep (key : Key) (t : Nat) (a r : BitVec 64) : BitVec 64 × BitVec 64 :=
  let b := aesDecrypt key (r ++ (a ^^^ wrapCounter t))
  (b.extractLsb' 0 64, b.extractLsb' 64 64)

/-- Four steps of the unwrap, for pieces 4 down to 1, counters `t + 4` down to `t + 1`. -/
def unwrapPass (key : Key) (t : Nat) (s : WrapState) : WrapState :=
  let p4 := unwrapStep key (t + 4) s.a s.r4
  let p3 := unwrapStep key (t + 3) p4.1 s.r3
  let p2 := unwrapStep key (t + 2) p3.1 s.r2
  let p1 := unwrapStep key (t + 1) p2.1 s.r1
  ⟨p1.1, p1.2, p2.2, p3.2, p4.2⟩

/-- The AES key unwrap of 40 bytes: the check register and the 256-bit key recovered. -/
def unwrapKey (key : Key) (wrapped : BitVec 320) : BitVec 64 × Key :=
  let s : WrapState :=
    ⟨wrapped.extractLsb' 0 64, wrapped.extractLsb' 64 64, wrapped.extractLsb' 128 64,
     wrapped.extractLsb' 192 64, wrapped.extractLsb' 256 64⟩
  let s := unwrapPass key 0 (unwrapPass key 4 (unwrapPass key 8 (unwrapPass key 12 (unwrapPass key 16
    (unwrapPass key 20 s)))))
  (s.a, s.r4 ++ s.r3 ++ s.r2 ++ s.r1)

/-- The unwrap of a transit key record: the tests of R82 in order, and the transit key. -/
def unwrapRecord (r : KeyRecord) : Option Key :=
  if field r 0 1 ≠ 1 then none
  else if r.extractLsb' 384 128 ≠ recordTag r then none
  else
    let u := unwrapKey wrapKey (r.extractLsb' 64 320)
    if u.1 = 0xA6A6A6A6A6A6A6A6 then some u.2 else none

end Sys2Proof.Machine
end

