-- ==== Sys2Proof/Machine/Ops.lean ====
section
/-! DEFINITION. The named operations over the tables and registers of the state: reading and writing a slot,
an extent entry, a tag, a stored record, a key; updating one unit; what the ports send; the response to the
request in progress. -/

namespace Sys2Proof.Machine

/-! ### Tables -/

/-- Recording slot record `n` (R20). -/
def State.recSlot (s : State) (n : Nat) : RecSlot := Table.get {} s.recs n

/-- Write recording slot record `n`. -/
def State.setRec (s : State) (n : Nat) (r : RecSlot) : State := { s with recs := Table.put {} s.recs n r }

/-- Ring slot record `n` (R43). -/
def State.ring (s : State) (n : Nat) : RingSlot := Table.get {} s.rings n

/-- Write ring slot record `n`. -/
def State.setRing (s : State) (n : Nat) (r : RingSlot) : State := { s with rings := Table.put {} s.rings n r }

/-- Extent entry `i` (R5). -/
def State.extent (s : State) (i : Nat) : Extent := Table.get {} s.extents i

/-- Write extent entry `i`. -/
def State.setExtent (s : State) (i : Nat) (e : Extent) : State :=
  { s with extents := Table.put {} s.extents i e }

/-- Chunk tag `i` of the tag store (R47): empty, or a serial. -/
def State.tagAt (s : State) (i : Nat) : Option Nat := Table.get none s.tags i

/-- Write chunk tag `i`. -/
def State.setTag (s : State) (i : Nat) (v : Option Nat) : State := { s with tags := Table.put none s.tags i v }

/-! ### Units -/

/-- Update the management unit. -/
def State.modMgmt (s : State) (f : Mgmt → Mgmt) : State := { s with mgmt := f s.mgmt }

/-- Update the clock. -/
def State.modClock (s : State) (f : Clock → Clock) : State := { s with clock := f s.clock }

/-- Update the slot store and its writer. -/
def State.modStore (s : State) (f : SlotStore → SlotStore) : State := { s with store := f s.store }

/-- Update the cipher engine and its arbiter. -/
def State.modEngine (s : State) (f : Engine → Engine) : State := { s with engine := f s.engine }

/-- Update the disk port. -/
def State.modDisk (s : State) (f : DiskPort → DiskPort) : State := { s with disk := f s.disk }

/-- Update the job unit. -/
def State.modJobs (s : State) (f : JobUnit → JobUnit) : State := { s with jobs := f s.jobs }

/-- Update the export session. -/
def State.modSession (s : State) (f : Session → Session) : State := { s with session := f s.session }

/-- Set the transfer table. -/
def State.setTransfers (s : State) (l : List Transfer) : State := { s with transfers := l }

/-- Set the foreground issue queue. -/
def State.setIssueQueue (s : State) (l : List Nat) : State := { s with issueQueue := l }

/-- Set the key entries. -/
def State.setKeys (s : State) (l : List KeyEntry) : State := { s with keys := l }

/-- Set the sweep in progress and the sweep queue. -/
def State.setSweeps (s : State) (running : Option RunningSweep) (queue : List Sweep) : State :=
  { s with sweep := running, sweepQueue := queue }

/-- Record something sent on a port (log 26). -/
def State.emit (s : State) (x : PortItem) : State := { s with sent := s.sent ++ [x] }

/-! ### Keys (chapter 5) -/

/-- The key entry of an owner; an owner has at most one (R75). -/
def State.keyEntry (s : State) (o : KeyOwner) : Option KeyEntry := s.keys.find? fun e => e.owner = o

/-- The working copy the key unit gives the engine, or none when the key is absent (R80). -/
def State.keyPair (s : State) (o : KeyOwner) : Option XtsPair := (s.keyEntry o).map KeyEntry.pair

/-- Destroy a key; a destruction asked for a key that is not held does nothing (R83). -/
def State.destroyKey (s : State) (o : KeyOwner) : State := s.setKeys (s.keys.filter fun e => !(e.owner = o))

/-- Add the entry of an owner: its source and the XTS pair expanded from it (R75, R79). -/
def State.addKey (s : State) (o : KeyOwner) (source : Key) : State :=
  s.setKeys ((s.destroyKey o).keys ++ [⟨o, source, expandPair source⟩])

/-- Derive the slot key of a slot from its nonce (R77). -/
def State.deriveSlot (s : State) (n : Nat) (nonce : Nonce) : State := s.addKey (.slot n) (deriveSlotKey n nonce)

/-- A draw of the random source (R76): its bits, a free value (log 4), and the state after it. -/
def State.draw (s : State) : Nonce × State := (Config.randomBits s.draws, { s with draws := s.draws + 1 })

/-! ### The response to the request in progress (R165) -/

/-- The request in progress becomes final: the response takes the result and the body, and the request in
progress is cleared. -/
def State.answer (s : State) (result : Result) (body : List Byte := []) (items next : Nat := 0)
    (overflowed : Bool := false) : State :=
  match s.mgmt.request with
  | none => s
  | some r => s.modMgmt fun m =>
      { m with
        request := none
        response := some { kind := r.kind, number := r.number, result, items, next, overflowed, body } }

/-- Whether the request in progress waits for this event. -/
def State.waits (s : State) (w : Wait) : Bool := s.mgmt.request.any fun r => r.wait = w

/-- The event `w`: a request that waits for it becomes final. -/
def State.answerIf (s : State) (w : Wait) (result : Result) (body : List Byte := []) : State :=
  if s.waits w then s.answer result body else s

/-- The request in progress now waits for `w`; its response stays PENDING. -/
def State.waitFor (s : State) (w : Wait) : State :=
  s.modMgmt fun m => { m with request := m.request.map fun r => { r with wait := w } }

/-! ### Modes -/

/-- Set the mode (R167). -/
def State.setMode (s : State) (mode : Mode) : State := s.modMgmt fun m => { m with mode }

/-! ### Discards in the engine (R117) -/

/-- A burst in progress of this owner leaves the engine with its partial output and working copies. -/
def State.discardBurst (s : State) (o : Owner) : State :=
  s.modEngine fun e => if e.burst.any (fun b => b.owner = o) then { e with burst := none } else e

/-- The job unit's waiting burst is withdrawn; the share count returns to 0 (R113, R117). -/
def State.withdrawJobBurst (s : State) : State :=
  if s.jobs.burst.isSome then
    (s.modJobs fun j => { j with burst := none }).modEngine fun e => { e with share := 0 }
  else s

end Sys2Proof.Machine
end

