-- ==== Sys2Proof/Machine/Operands.lean ====
section
/-! DEFINITION. What a block address stands for: the partition test, translation, fragments, bursts, the
reverse lookup (chapter 1, R106). -/

namespace Sys2Proof.Machine

/-! ### The partition -/

/-- Block `a` lies in the recording partition (R1). -/
def State.inPartition (s : State) (a : Nat) : Bool :=
  let u := s.mgmt.setup
  0 < u.length && u.first ≤ a && a < u.first + 256 * u.length

/-- At least one of `count` blocks from `first` lies in the partition (R86). -/
def State.touchesPartition (s : State) (first count : Nat) : Bool :=
  let u := s.mgmt.setup
  0 < u.length && first < u.first + 256 * u.length && u.first < first + count

/-- The first block of the transfer that lies on the other side of the partition edge from its first block,
if there is one (R87, test 4). -/
def State.spanBlock (s : State) (first count : Nat) : Option Nat :=
  let u := s.mgmt.setup
  if s.inPartition first then
    if first + count ≤ u.first + 256 * u.length then none else some (u.first + 256 * u.length)
  else if s.touchesPartition first count then some u.first
  else none

/-- The partition chunk number of a block in the partition (R2). -/
def State.chunkOf (s : State) (a : Nat) : Nat := (a - s.mgmt.setup.first) / 256

/-- The block-in-chunk of a block in the partition (R2). -/
def State.inChunk (s : State) (a : Nat) : Nat := (a - s.mgmt.setup.first) % 256

/-- The first disk block of a partition chunk (R2). -/
def State.chunkBlock (s : State) (p : Nat) : Nat := s.mgmt.setup.first + 256 * p

/-! ### Matching and translation -/

/-- Partition chunk `p` matches entry `e` (R6). -/
def Extent.matchesChunk (e : Extent) (p : Nat) : Bool :=
  e.state = .valid && p / 2 ^ e.exponent = e.base / 2 ^ e.exponent

/-- The entry that a partition chunk matches, or none: unassigned (R6). -/
def State.matchChunk (s : State) (p : Nat) : Option Nat :=
  (s.extents.find? fun x => x.2.matchesChunk p).map (·.1)

/-- The ordinal of partition chunk `p` through entry `e` (R4). -/
def Extent.ordinalOf (e : Extent) (p : Nat) : Nat := e.firstOrdinal + (p - e.base)

/-- The tweak of block-in-chunk `b` of an ordinal (R4). -/
def tweakOf (ordinal b : Nat) : Nat := ordinal * 256 + b

/-- The ordinal limit of a slot (R3); a ring slot that is not RUNNING has none. -/
def State.ordinalLimit (s : State) (slot : Nat) : Nat :=
  if slot < 64 then maxOrdinal else if (s.ring slot).state = .running then (s.ring slot).size else 0

/-- The reverse lookup of an ordinal (R8): the VALID entry of the lowest index that holds it, with its
partition chunk. -/
def State.reverseLookup (s : State) (slot c : Nat) : Option (Nat × Nat) :=
  (s.extents.find? fun x =>
    x.2.state = .valid && x.2.slot = slot && x.2.firstOrdinal ≤ c
      && c < x.2.firstOrdinal + 2 ^ x.2.exponent).map
    fun x => (x.1, x.2.base + (c - x.2.firstOrdinal))

/-! ### Fragments (R7) -/

/-- The blocks of a transfer, chunk by chunk, each piece with its class; `n` bounds the number of chunks. -/
def State.chunkPieces (s : State) : Nat → Nat → Nat → List Fragment
  | 0, _, _ => []
  | n + 1, a, left =>
      if left = 0 then []
      else
        let here := min left (256 - s.inChunk a)
        ⟨a, here, s.matchChunk (s.chunkOf a)⟩ :: s.chunkPieces n (a + here) (left - here)

/-- Join neighbouring pieces of one class into maximal runs. -/
def joinFragments : List Fragment → List Fragment
  | [] => []
  | f :: rest =>
    match joinFragments rest with
    | [] => [f]
    | g :: more => if g.entry = f.entry then ⟨f.first, f.count + g.count, f.entry⟩ :: more else f :: g :: more

/-- The fragment list of `count` blocks from `first`, all in the partition (R7). -/
def State.fragmentsOf (s : State) (first count : Nat) : List Fragment :=
  joinFragments (s.chunkPieces (count / 256 + 2) first count)

/-- The extent entries a fragment list names (R9). -/
def entriesOf (fragments : List Fragment) : List Nat := fragments.filterMap Fragment.entry

/-- The slot of a fragment, from its entry (R7). -/
def State.fragmentSlot (s : State) (f : Fragment) : Option Nat := f.entry.map fun e => (s.extent e).slot

/-- The transfer is a READ with a fragment of this slot (R157). -/
def State.readsSlot (s : State) (t : Transfer) (slot : Nat) : Bool :=
  t.kind = .read && t.fragments.any fun f => s.fragmentSlot f = some slot

/-! ### Bursts (R106) -/

/-- A burst of a transfer: first block, number of blocks, fragment. -/
structure BurstRange where
  first : Nat
  count : Nat
  fragment : Fragment
  deriving DecidableEq, Repr

/-- The next burst of a PROTECTED transfer: it begins at its first block not yet covered and ends at the
eighth block, the last block of its chunk, of its fragment or of the transfer (R106). -/
def State.nextBurst (s : State) (t : Transfer) : Option BurstRange :=
  match t.first, t.count with
  | some first, some count =>
    if t.covered < count then
      let a := first + t.covered
      (t.fragments.find? fun f => f.first ≤ a && a < f.first + f.count).map fun f =>
        ⟨a, min (min 8 (256 - s.inChunk a)) (min (f.first + f.count - a) (first + count - a)), f⟩
    else none
  | _, _ => none

/-- A count field: 0 means 65,536 (R85, R177). -/
def blockCount (countField : Nat) : Nat := if countField = 0 then 65536 else countField

end Sys2Proof.Machine
end

