-- ==== Sys2Proof/Machine/Flags.lean ====
section
/-! DEFINITION. The flags and marks software sees: notices and the notice-pending mark (R173, R103), the health
state (R126, R127), first error (R97), changed (R32, R43). -/

namespace Sys2Proof.Machine

/-! ### Notices -/

/-- Raise a notice (R173): it coalesces with one of the same kind and subject, joins the tail, or is dropped
with the overflowed mark set. -/
def raiseNotice (m : Mgmt) (kind : NoticeKind) (subject : Option Nat) (details : NoticeDetails) : Mgmt :=
  if m.notices.any (fun n => n.kind = kind && n.subject = subject) then
    { m with notices := m.notices.map fun n =>
        if n.kind = kind && n.subject = subject then { n with count := min 255 (n.count + 1), details } else n }
  else if m.notices.length < 32 then
    { m with notices := m.notices ++ [⟨kind, subject, 1, details⟩] }
  else { m with overflowed := true }

/-- Raise a notice in the management unit's list (R173). -/
def State.raise (s : State) (kind : NoticeKind) (subject : Option Nat := none)
    (details : NoticeDetails := .nothing) : State :=
  s.modMgmt fun m => raiseNotice m kind subject details

/-- The notice-pending mark: the notice list holds at least one notice (R103). -/
def State.mark (s : State) : Bool := !s.mgmt.notices.isEmpty

/-! ### Completions -/

/-- The completion reason codes (section 12.4); GOOD is 0. -/
def Reason.code : Reason → Nat
  | .unassigned => 1
  | .writeLocked => 2
  | .span => 3
  | .split => 4
  | .unwritten => 5
  | .expired => 6
  | .moved => 7
  | .outOfOrder => 8
  | .closed => 9
  | .diskError => 10
  | .timeout => 11
  | .aborted => 12
  | .cutoff => 13
  | .tagBusy => 14
  | .mgmtBusy => 15
  | .mgmtForm => 16
  | .notReady => 17

/-- A completion (R102, R177): status ERROR with a reason and a block, or GOOD with reason 0 and block 0. -/
def completionOf (tag : Nat) (error : Option (Reason × Nat)) (mark : Bool) : PortItem :=
  match error with
  | some (reason, block) => .completion tag .error reason.code block mark
  | none => .completion tag .good 0 0 mark

/-- Send a completion on the controller port, with the notice-pending mark as it stands (R102, R103). -/
def State.complete (s : State) (tag : Nat) (error : Option (Reason × Nat)) : State :=
  s.emit (completionOf tag error s.mark)

/-! ### Health -/

/-- The health state of a count, while the state is not CUTOFF (R127). -/
def healthOf (count : Nat) : HealthState :=
  if count ≤ 95 then .normal else if count ≤ 127 then .warning else .degraded

/-- The notice of a new health state (R127). -/
def healthNotice : HealthState → NoticeKind
  | .normal => .linkNormal
  | .warning => .linkWarning
  | .degraded => .linkDegraded
  | .cutoff => .linkCutoff

/-- Set the health count and state; a change of state raises the notice of the new one (R127). -/
def State.setHealth (s : State) (count : Nat) (state : HealthState) : State :=
  let s' := s.modDisk fun d => { d with health := count, healthState := state }
  if s.disk.healthState = state then s' else s'.raise (healthNotice state)

/-- A success falls the count by 1, not below 0 (R126). -/
def State.scoreSuccess (s : State) : State :=
  let count := s.disk.health - 1
  s.setHealth count (if s.disk.healthState = .cutoff then .cutoff else healthOf count)

/-- The count after `n` increments of 8, and whether one of them would have passed 255 (R126). -/
def raiseHealth : Nat → Nat → Nat × Bool
  | 0, count => (count, false)
  | n + 1, count =>
      if count + 8 ≤ 255 then raiseHealth n (count + 8) else (255, true)

/-- The count after `n` failures or timeouts (R126); a rise that would pass 255 does not set the state here:
the caller enters CUTOFF (R128). -/
def State.scoreBad (s : State) (n : Nat) : State × Bool :=
  let r := raiseHealth n s.disk.health
  if r.2 || s.disk.healthState = .cutoff then (s.modDisk fun d => { d with health := r.1 }, r.2)
  else (s.setHealth r.1 (healthOf r.1), false)

/-! ### First error -/

/-- Take a block and a reason into a transfer's first error: the lowest block, the reason recorded first
(R97). -/
def Transfer.noteError (t : Transfer) (block : Nat) (reason : Reason) : Transfer :=
  match t.firstError with
  | none => { t with firstError := some (block, reason) }
  | some (b, _) => if block < b then { t with firstError := some (block, reason) } else t

end Sys2Proof.Machine
end

