-- ==== Sys2Proof/Machine/Store.lean ====
section
/-! DEFINITION. The slot store and the store writer (sections 2.8 and 4.2): demands, the begin and the end of a
write, and the recording slot records as far as the store concerns them. -/

namespace Sys2Proof.Machine

/-- The store content of a recording slot (R36): MOVING is stored as FINISHED, EMPTY and ERASING as EMPTY. -/
def storedOf (r : RecSlot) : StoredRec :=
  let full (state : StoredState) : StoredRec :=
    { state, cls := r.cls, nonce := r.nonce, high := r.high, length := r.length, expiry := r.expiry,
      floor := r.floor, created := r.created }
  match r.state with
  | .opened => full .opened
  | .finished | .moving => full .finished
  | .empty | .erasing | .running => {}

/-- The record joins the store write queue: `persisting` is set (R33). -/
def State.markPersisting (s : State) : RecordId → State
  | .slot n => s.setRec n { s.recSlot n with persisting := true }
  | .time => s

/-- A demand (R37): the record joins the tail, or an existing entry keeps its place. -/
def State.demand (s : State) (id : RecordId) : State :=
  (s.modStore fun t => if t.queue.contains id then t else { t with queue := t.queue ++ [id] }).markPersisting id

/-- A floor write demand's place in the queue: the head (R31, R37). -/
def State.demandFirst (s : State) (id : RecordId) : State :=
  (s.modStore fun t => { t with queue := id :: t.queue.filter (· ≠ id) }).markPersisting id

/-- A floor write demand (R31): the floor rises to `floor` if that is greater, and the record goes to the head
of the queue. -/
def State.demandFloor (s : State) (n floor : Nat) : State :=
  let r := s.recSlot n
  let s := if floor > r.floor then s.setRec n { r with floor, changed := true } else s
  s.demandFirst (.slot n)

/-- The content of the time record at the begin of a write (R68). -/
def State.timeContent (s : State) : Nat :=
  match s.clock.target with
  | some v => if v > s.clock.minutes then v else s.clock.minutes
  | none => s.clock.minutes

/-- Whether the request in progress waits for the write of a record (R25, R26, R74). -/
def State.waitsWrite (s : State) : RecordId → Bool
  | .slot n =>
      match s.mgmt.request with
      | some r =>
        (match r.wait with
        | .slotOpen m => m = n
        | .finishWrite m _ => m = n
        | _ => false)
      | none => false
  | .time => s.waits .clockAdvance

/-- The write of a record that begins now, with the content as it stands and the floor it carries (R38, R31). -/
def State.newWrite (s : State) (id : RecordId) : StoreWrite :=
  match id with
  | .slot n =>
      { record := id, content := .slot (storedOf (s.recSlot n)),
        erasure := (s.recSlot n).state = .erasing, answers := s.waitsWrite id, floor := (s.recSlot n).floor }
  | .time => { record := id, content := .time s.timeContent, erasure := false, answers := s.waitsWrite id, floor := 0 }

/-- The store writer: idle with the queue not empty, it takes the head entry (R38). -/
def State.beginWrite (s : State) : State :=
  match s.store.writer, s.store.queue with
  | none, id :: rest => s.modStore fun t => { t with queue := rest, writer := some (s.newWrite id) }
  | _, _ => s

/-- Stored record `n` (R36). -/
def State.storedRec (s : State) (n : Nat) : StoredRec := Table.get {} s.store.records n

/-- The stored records after a write of a content ends (R38): the record holds it, intact. -/
def State.storeContent (s : State) (id : RecordId) (content : WriteContent) : State :=
  match id, content with
  | .slot n, .slot r => s.modStore fun t => { t with records := Table.put {} t.records n r }
  | .time, .time v => s.modStore fun t => { t with time := { damaged := false, minutes := v } }
  | _, _ => s

/-- The store after a power loss (R39): the write in progress leaves its record damaged, the queue is
lost. -/
def SlotStore.afterPowerLoss (t : SlotStore) : SlotStore :=
  let t' := { t with queue := [], writer := none }
  match t.writer with
  | none => t'
  | some w =>
    match w.record with
    | .slot n => { t' with records := Table.put {} t.records n { Table.get {} t.records n with damaged := true } }
    | .time => { t' with time := { t.time with damaged := true } }

end Sys2Proof.Machine
end

