-- ==== Sys2Proof/Machine/Transfers.lean ====
section
/-! DEFINITION. The transfer table (chapter 6): references, ends, completions, holding back, and the replacing
of waiting output by zero-fill. -/

namespace Sys2Proof.Machine

/-- The record of a transfer tag, if it is in use (R85). -/
def State.transfer (s : State) (tag : Nat) : Option Transfer := s.transfers.find? fun t => t.tag = tag

/-- Update the record of a tag. -/
def State.modTransfer (s : State) (tag : Nat) (f : Transfer → Transfer) : State :=
  s.setTransfers (s.transfers.map fun t => if t.tag = tag then f t else t)

/-- The transfer needs a command on the disk port (R86). -/
def TransferKind.diskBound : TransferKind → Bool
  | .mreq => false
  | .mrsp => false
  | _ => true

/-- A rule keeps the QUEUED transfer from issue: DRAINING (R100), a wait set that is not empty (R101), or an
ENDING session (R157). -/
def State.heldBack (s : State) (t : Transfer) : Bool :=
  t.drainHeld || !t.waitSet.isEmpty || s.session.heldBack.contains t.tag

/-- The transfer is QUEUED, held back by no rule and not in the foreground issue queue: its admission or its release at this event
has it join the queue (R88). -/
def State.dueToJoin (s : State) (t : Transfer) : Bool :=
  t.state = .queued && t.kind.diskBound && !s.heldBack t && !s.issueQueue.contains t.tag

/-- The transfers admitted or released at an event, whatever released them, join the tail of the foreground issue queue in the order
of their admissions, which is the order of the table (R88). -/
def State.joinReleased (s : State) : State :=
  s.setIssueQueue (s.issueQueue ++ (s.transfers.filter s.dueToJoin).map Transfer.tag)

/-! ### References (R9, R11, R22) -/

/-- Take one reference on an entry (R9, R10). -/
def State.takeReference (s : State) (e : Nat) : State :=
  s.setExtent e { s.extent e with inUse := (s.extent e).inUse + 1 }

/-- Release a reference: a RETIRING entry whose count reaches 0 becomes EMPTY (R11). -/
def State.releaseReference (s : State) (e : Nat) : State :=
  let x := s.extent e
  if x.state = .retiring ∧ x.inUse ≤ 1 then s.setExtent e {} else s.setExtent e { x with inUse := x.inUse - 1 }

/-- The finish completes: the slot becomes FINISHED with its length, and its record is queued (R26, R27). -/
def State.finishSlot (s : State) (n : Nat) : State :=
  let r := s.recSlot n
  let s := s.setRec n
    { r with state := .finished, length := r.high, finishPending := false, changed := true }
  let s := if s.waits (.finishPending n) then s.waitFor (.finishWrite n r.high) else s
  s.demand (.slot n)

/-- The writes-in-flight count of a slot falls by 1; at 0 a pending finish completes (R22, R27). -/
def State.releaseWrite (s : State) (n : Nat) : State :=
  let r := s.recSlot n
  let s := s.setRec n { r with inFlight := r.inFlight - 1 }
  if r.inFlight ≤ 1 ∧ r.finishPending ∧ r.state = .opened then s.finishSlot n else s

/-- Release what a transfer holds: its extent references and the writes-in-flight counts it raised (R91,
R104). -/
def State.releaseTransfer (s : State) (t : Transfer) : State :=
  t.writeSlots.foldl State.releaseWrite ((entriesOf t.fragments).foldl State.releaseReference s)

/-! ### Replacing waiting output by zero-fill -/

/-- The waiting blocks that satisfy `hit` become zero blocks. -/
def zeroOutput (hit : Origin → Bool) (l : List OutBlock) : List OutBlock :=
  l.map fun b => if hit b.origin then ⟨zeroBlock, .zero⟩ else b

/-- Replace the waiting blocks of a transfer that satisfy `hit` by zero-fill, and take the first of them into
first error (R97; log 16). -/
def Transfer.withdraw (t : Transfer) (hit : Origin → Bool) (reason : Reason) : Transfer :=
  match t.output.findIdx? fun b => hit b.origin with
  | none => t
  | some i =>
      ({ t with output := zeroOutput hit t.output }).noteError (t.first.getD 0 + t.delivered + i) reason

/-- The burst in progress carries output that satisfies `hit` and was not withdrawn before. -/
def Burst.hitBy (b : Burst) (hit : Origin → Bool) : Bool := !b.withdrawn && b.origins.any hit

/-- Replace every undelivered block that satisfies `hit`, waiting or still in the engine, by zero-fill with
`reason` (R52, R98, R153, R155). A burst still being ciphered runs to its end and delivers zero-fill
(R117). -/
def State.withdrawOutput (s : State) (hit : Origin → Bool) (reason : Reason) : State :=
  let s := s.setTransfers (s.transfers.map fun t => t.withdraw hit reason)
  match s.engine.burst with
  | some b =>
    if b.hitBy hit then
      let s := s.modEngine fun e => { e with burst := some { b with withdrawn := true } }
      match b.owner with
      | .tag tag => s.modTransfer tag fun t => t.noteError b.first reason
      | .job => s
    else s
  | none => s

/-- An origin is a transit-enciphered block-in-chunk 255 of this chunk. -/
def Origin.isLastOf (slot ordinal : Nat) (o : Origin) : Bool := o = .transit slot ordinal true

/-- An origin is a transit-enciphered block of this chunk. -/
def Origin.isTransitOf (slot ordinal : Nat) : Origin → Bool
  | .transit n c _ => n = slot && c = ordinal
  | _ => false

/-- Some undelivered block, waiting or in the engine, satisfies `hit`. -/
def State.undelivered (s : State) (hit : Origin → Bool) : Bool :=
  s.transfers.any (fun t => t.output.any fun b => hit b.origin) || s.engine.burst.any (fun b => b.hitBy hit)

/-- Advance pending clears without an advance when no block-in-chunk 255 of the cursor chunk that was decided
for delivery is left undelivered; the next chunk's blocks are then delivered OUT-OF-ORDER (R155). -/
def State.checkAdvance (s : State) : State :=
  match s.session.slot, s.session.cursor with
  | some n, some c =>
    if s.session.advancePending && !s.undelivered (Origin.isLastOf n c) then
      (s.modSession fun x => { x with advancePending := false }).withdrawOutput
        (Origin.isTransitOf n (c + 1)) .outOfOrder
    else s
  | _, _ => s

/-! ### Leaving the lists -/

/-- A transfer leaves a ring's held list (R56). -/
def State.leaveRing (s : State) (tag n : Nat) : State :=
  let r := s.ring n
  if r.held.any fun h => h.1 = tag then s.setRing n { r with held := r.held.filter fun h => h.1 ≠ tag } else s

/-- A transfer leaves the issue queue, the rings' held lists and the session's two lists. -/
def State.leaveLists (s : State) (tag : Nat) : State :=
  let s := s.setIssueQueue (s.issueQueue.filter (· ≠ tag))
  let s := [64, 65, 66, 67].foldl (fun s n => s.leaveRing tag n) s
  s.modSession fun x =>
    { x with held := x.held.filter (fun h => h.1 ≠ tag), heldBack := x.heldBack.filter (· ≠ tag) }

/-- A WRITE leaves every wait set (R101). -/
def State.leaveWaitSets (s : State) (tag : Nat) : State :=
  s.setTransfers (s.transfers.map fun t => { t with waitSet := t.waitSet.filter (· ≠ tag) })

/-! ### Ends -/

/-- A transfer leaves the table: its record is freed, its burst discarded and its blocks dropped with it, what it
holds released, and it leaves every list and wait set (R91, R104). -/
def State.freeTransfer (s : State) (t : Transfer) : State :=
  let s := s.setTransfers (s.transfers.filter fun u => u.tag ≠ t.tag)
  let s := (s.discardBurst (.tag t.tag)).releaseTransfer t
  ((s.leaveLists t.tag).leaveWaitSets t.tag).checkAdvance

/-- A transfer completes: its completion is sent and it leaves the table (R91). -/
def State.finishTransfer (s : State) (t : Transfer) (error : Option (Reason × Nat)) : State :=
  (s.complete t.tag error).freeTransfer t

/-- The content of the completion of a transfer that no TIMEOUT, ABORTED or CUTOFF ended: ERROR with its first
error, or GOOD (R102). -/
def Transfer.ownError (t : Transfer) : Option (Reason × Nat) := t.firstError.map fun e => (e.2, e.1)

/-- The block named when a transfer ends by TIMEOUT, ABORTED or CUTOFF (R102; log 17 for the READ with no
undelivered block). -/
def Transfer.imposedBlock (t : Transfer) : Nat :=
  match t.kind with
  | .read =>
      let first := t.first.getD 0
      let count := t.count.getD 0
      if t.delivered < count then first + t.delivered else Config.noUndeliveredBlock first count
  | _ => t.first.getD 0

/-- An end imposed on a transfer with TIMEOUT, ABORTED or CUTOFF (R92): its burst is discarded, its waiting
blocks dropped, and it completes at the same event. -/
def State.imposeEnd (s : State) (reason : Reason) (tag : Nat) : State :=
  match s.transfer tag with
  | none => s
  | some t => s.finishTransfer t (some (reason, t.imposedBlock))

/-- The block a transfer's failing command is recorded at: the one the disk reports, or the first not yet
handed on (R92; log 17 when every block has been handed on). -/
def Transfer.failingBlock (t : Transfer) (failing : Option Nat) : Nat :=
  match failing, t.first, t.count with
  | some b, _, _ => b
  | none, some first, some count =>
      if t.delivered < count then first + t.delivered else Config.noUndeliveredBlock first count
  | none, _, _ => 0

/-- The end imposed on a transfer whose command the disk reports failed (R92, R99). -/
def State.failTransfer (s : State) (tag : Nat) (failing : Option Nat) : State :=
  match s.transfer tag with
  | none => s
  | some t =>
      let t := t.noteError (t.failingBlock failing) .diskError
      s.finishTransfer t t.ownError

/-- The event that ends a transfer's disk command with success (R91). -/
def State.commandDone (s : State) (tag : Nat) : State :=
  match s.transfer tag with
  | none => s
  | some t =>
    match t.kind with
    | .read =>
        if t.delivered < t.count.getD 0 then
          s.modTransfer tag fun t => { t with state := .ending, commandEnded := true }
        else s.finishTransfer t t.ownError
    | _ => s.finishTransfer t t.ownError

end Sys2Proof.Machine
end

