-- ==== Sys2Proof/Machine/Jobs.lean ====
section
/-! DEFINITION. The job queue and the ends of chunks and jobs (chapter 9). The running of a job, which needs the
ring unit, is in Machine/JobRun.lean. -/

namespace Sys2Proof.Machine

/-- The head job: the one that may leave WAITING (R134). -/
def State.headJob (s : State) : Option Job := s.jobs.queue.head?

/-- Update the head job. -/
def State.modHead (s : State) (f : Job → Job) : State :=
  s.modJobs fun u => { u with queue := match u.queue with | [] => [] | j :: rest => f j :: rest }

/-- A pause cause holds: the mode is not RUN, the health state is DEGRADED or CUTOFF, or B is 0 (R144). The
start conditions of R137 are its negation. -/
def State.pauseCause (s : State) : Bool :=
  s.mgmt.mode ≠ .run || s.disk.healthState = .degraded || s.disk.healthState = .cutoff
    || s.mgmt.setup.bgLimit = 0

/-- A chunk of the head job is in flight: its stage is READ, CIPHER or WRITE, or the job is ENDING (R144). -/
def State.chunkInFlight (s : State) : Bool :=
  match s.headJob with
  | none => false
  | some j => (j.state = .running && j.stage ≠ .idle) || j.state = .ending

/-- The job unit has a command outstanding (R119). -/
def State.jobOutstanding (s : State) : Bool := s.disk.outstanding.any fun o => o.owner = .job

/-- The job unit's extent reference is released (R10, R11). -/
def State.releaseJobReference (s : State) : State :=
  match s.jobs.reference with
  | none => s
  | some e => (s.modJobs fun u => { u with reference := none }).releaseReference e

/-- The current chunk is discarded: its burst withdrawn or discarded, its command request withdrawn, its reference
released, its blocks dropped, its stage NONE (R10, R117, R143, R144). -/
def State.discardChunk (s : State) : State :=
  let s := s.withdrawJobBurst.discardBurst .job
  let s := s.modJobs fun u => { u with command := none, kept := [], recoded := [], sent := 0 }
  s.releaseJobReference.modHead fun j => { j with stage := .idle, chunkEpoch := none }

/-- The current chunk is lost (R138, R139, R142, R143). -/
def State.loseChunk (s : State) : State :=
  s.discardChunk.modHead fun j => { j with lost := j.lost + 1, done := j.done + 1 }

/-- The cancel count returns to 0 at the event at which the running job ends (R115). -/
def State.clearCancels (s : State) : State := s.modEngine fun e => { e with cancels := 0 }

/-- Remove a job from the queue (R134). -/
def State.removeJob (s : State) (number : Nat) : State :=
  s.modJobs fun u => { u with queue := u.queue.filter fun j => j.number ≠ number }

/-- A job leaves the queue at the completion of its ending, or from WAITING or STARTING: JOB-ENDED with the outcome,
the chunk index, copied, lost and overtaken (R145). -/
def State.jobEnded (s : State) (j : Job) (outcome : JobOutcome) (chunk : Nat) : State :=
  (s.removeJob j.number).raise .jobEnded (some j.number)
    (.jobEnded outcome chunk j.copied j.lost j.overtaken)

/-- The head job completes: outcome DONE, JOB-DONE with its counts (R141). -/
def State.jobDone (s : State) (j : Job) : State :=
  (s.clearCancels.removeJob j.number).raise .jobDone (some j.number) (.jobDone j.copied j.lost j.overtaken)

/-- A job ends with an outcome (R145): RUNNING or PAUSED, it becomes ENDING while a command is outstanding and
leaves at once otherwise; WAITING or STARTING, it is removed; ENDING, it keeps its first outcome. -/
def State.endJob (s : State) (outcome : JobOutcome) (j : Job) : State :=
  match j.state with
  | .waiting | .starting => s.jobEnded j outcome j.done
  | .running | .paused =>
      if s.jobOutstanding then
        let s := (s.withdrawJobBurst.discardBurst .job).clearCancels
        s.modHead fun j => { j with state := .ending, outcome := some outcome }
      else (s.discardChunk.clearCancels).jobEnded j outcome j.done
  | .ending => s

/-- Every job that satisfies `p` ends FAILED with cause SLOT-STATE (R146), in queue order, which is the model's choice (log 11). -/
def State.endJobs (s : State) (p : Job → Bool) : State :=
  (s.jobs.queue.filter p).foldl (fun s j => s.endJob .slotState j) s

/-- The end of an ENDING job's command completes its ending; a WRITE that ends with success counts the chunk
copied (R145). -/
def State.endingComplete (s : State) (j : Job) (copied : Bool) : State :=
  let j' := if copied then { j with copied := j.copied + 1, done := j.done + 1 } else j
  s.discardChunk.jobEnded j' (j.outcome.getD .aborted) j.done

/-- An abort of the job's command, by a timeout, a disk-link reset or CUTOFF (R143): a RUNNING job's chunk
restarts, an ENDING job's ending completes. -/
def State.jobAborted (s : State) : State :=
  match s.headJob with
  | none => s
  | some j =>
    match j.state with
    | .ending => s.endingComplete j false
    | _ => s.discardChunk

/-- The disk reports failure of the job's command (R143). -/
def State.jobFailed (s : State) : State :=
  match s.headJob with
  | none => s
  | some j =>
    match j.state with
    | .ending => s.endingComplete j false
    | _ => if j.stage = .write then s.endJob .diskError j else s.loseChunk

/-- An expiry of an epoch of a ring, handed to the job unit (R142): a chunk in CIPHER, or in WRITE not yet issued,
whose chunk epoch is the one that expires is lost. -/
def State.jobExpiry (s : State) (slot : Nat) (e : Epoch) : State :=
  match s.headJob with
  | none => s
  | some j =>
    if j.state = .running && j.source = slot && j.chunkEpoch = some (e.serial, e.sequence)
        && (j.stage = .cipher || (j.stage = .write && s.jobs.command.isSome)) then s.loseChunk
    else s

end Sys2Proof.Machine
end

