-- ==== Sys2Proof/Machine/Rings.lean ====
section
/-! DEFINITION. The ring unit (chapter 3): epochs, expiry, opens, the tag store and the sweeper. -/

namespace Sys2Proof.Machine

/-- The ring slot numbers (R43). -/
def ringNumbers : List Nat := [64, 65, 66, 67]

/-- The LIVE epochs of a ring, in open order (R49). -/
def RingSlot.liveEpochs (r : RingSlot) : List Epoch := r.epochs.filter fun e => e.state = .live

/-- The current epoch: the newest LIVE entry (R49). -/
def RingSlot.current (r : RingSlot) : Option Epoch := r.liveEpochs.getLast?

/-- The entry of a serial; the serials of a list are distinct (R49). -/
def RingSlot.epochOf (r : RingSlot) (serial : Nat) : Option Epoch := r.epochs.find? fun e => e.serial = serial

/-- A serial names a LIVE epoch (R60). -/
def RingSlot.isLive (r : RingSlot) (serial : Nat) : Bool :=
  r.epochs.any fun e => e.serial = serial && e.state = .live

/-- A serial names a SWEEPING epoch (R56). -/
def RingSlot.isSweeping (r : RingSlot) (serial : Nat) : Bool :=
  r.epochs.any fun e => e.serial = serial && e.state = .sweeping

/-- The serial the next open computes (R54). -/
def RingSlot.nextSerial (r : RingSlot) : Nat :=
  match r.lastSerial with
  | none => 0
  | some n => (n + 1) % 16

/-- The epoch sequence after one more open, wrapping (R54). -/
def RingSlot.nextSequence (r : RingSlot) : Nat := (r.sequence + 1) % 4294967296

/-! ### Expiry -/

/-- Make the entry of a serial SWEEPING (R50). -/
def RingSlot.expireEntry (r : RingSlot) (serial : Nat) : RingSlot :=
  { r with
    epochs := r.epochs.map fun e => if e.serial = serial then { e with state := .sweeping } else e
    changed := true }

/-- The block was deciphered under this epoch's key. -/
def Origin.isEpoch (slot serial : Nat) (o : Origin) : Bool := o = .epoch slot serial

/-- The block was deciphered or transit-enciphered under the key of this slot, a recording or a ring slot
(R98). -/
def Origin.isOfSlot (slot : Nat) : Origin → Bool
  | .plain n _ => n = slot
  | .epoch n _ => n = slot
  | .transit n _ _ => n = slot
  | _ => false

/-- The expiry of a LIVE epoch (R50): its entry becomes SWEEPING, its key is destroyed, undelivered output
deciphered under it becomes zero-fill EXPIRED (R52), its sweep is queued unless the slot is being erased, and
the job unit is handed the expiry (R142). -/
def State.expireEpoch (s : State) (slot : Nat) (sweeps : Bool) (e : Epoch) : State :=
  let s := (s.setRing slot ((s.ring slot).expireEntry e.serial)).destroyKey (.epoch slot e.serial)
  let s := s.withdrawOutput (Origin.isEpoch slot e.serial) .expired
  let s := if sweeps then s.setSweeps s.sweep (s.sweepQueue ++ [⟨slot, e.serial⟩]) else s
  s.jobExpiry slot e

/-! ### Opening epochs -/

/-- An open (R54): the new epoch joins the tail as LIVE and its key is derived (R78). -/
def State.openEpoch (s : State) (slot : Nat) : State :=
  let r := s.ring slot
  let epoch : Epoch := ⟨r.nextSerial, r.nextSequence, s.clock.minutes, .live⟩
  let s := s.setRing slot
    { r with
      epochs := r.epochs ++ [epoch], lastSerial := some epoch.serial, sequence := epoch.sequence
      changed := true }
  match s.keyEntry (.slot slot) with
  | none => s
  | some k => s.addKey (.epoch slot epoch.serial) (deriveEpochKey k.source epoch.sequence epoch.openMinute)

/-- Early expiry (R55): when 8 epochs are LIVE, the oldest of them expires. -/
def State.earlyExpiry (s : State) (slot : Nat) : State :=
  if 8 ≤ (s.ring slot).liveEpochs.length then
    match (s.ring slot).liveEpochs with
    | [] => s
    | e :: _ => s.expireEpoch slot true e
  else s

/-- An automatic open is due: there is no current epoch, or it is L minutes old or older (R53). -/
def State.openDue (s : State) (slot : Nat) : Bool :=
  match (s.ring slot).current with
  | none => true
  | some e => e.openMinute + (s.ring slot).epochLength ≤ s.clock.minutes

/-- The epoch decision at a write burst's take is called for: the first burst of its transfer into the chunk, or a
tag that is empty or names no LIVE epoch (R53). -/
def State.decisionDue (s : State) (slot c : Nat) (firstBurst : Bool) : Bool :=
  firstBurst ||
    match s.tagAt ((s.ring slot).tagStart + c) with
    | none => true
    | some serial => !(s.ring slot).isLive serial

/-- The epoch decision (R53, R55, R56, R54): the state after it, and the serial awaited when it ends in a
hold. -/
def State.decideEpoch (s : State) (slot c : Nat) : State × Option Nat :=
  let index := (s.ring slot).tagStart + c
  if s.openDue slot then
    let s := s.earlyExpiry slot
    let serial := (s.ring slot).nextSerial
    if (s.ring slot).isSweeping serial then (s, some serial)
    else ((s.openEpoch slot).setTag index (some serial), none)
  else (s.setTag index ((s.ring slot).current.map Epoch.serial), none)

/-- The answers to a forced open (R57). -/
inductive ForcedAnswer where
  | refused
  | notNow
  | fence (f : Fence) (sequence : Nat)
  deriving DecidableEq, Repr

/-- A forced open (R57). -/
def State.forcedOpen (s : State) (slot : Nat) : State × ForcedAnswer :=
  let r := s.ring slot
  if r.state ≠ .running then (s, .refused)
  else if 8 ≤ r.liveEpochs.length then (s, .notNow)
  else if r.isSweeping r.nextSerial then (s, .notNow)
  else
    let fence := match r.current with
      | some e => Fence.serial e.serial
      | none => .noEpoch
    (s.openEpoch slot, .fence fence r.nextSequence)

/-- The head job, STARTING on this ring, asks for a forced open (R137): on a fence it becomes RUNNING. -/
def State.askForced (s : State) : State :=
  match s.headJob with
  | none => s
  | some j =>
    match s.forcedOpen j.source with
    | (s', .fence f sequence) =>
        s'.modHead fun j => { j with state := .running, fence := some f, forcedSequence := some sequence }
    | _ => s

/-- An expiry or a sweep end of a ring is handed to a job waiting to start on it, which asks again (R57,
R137). -/
def State.askAgain (s : State) (slot : Nat) : State :=
  match s.headJob with
  | some j => if j.state = .starting && j.source = slot && !s.pauseCause then s.askForced else s
  | none => s

/-- The expiry pass of one ring at the count as it stands (R51). -/
def State.expireRing (s : State) (slot : Nat) : State :=
  let r := s.ring slot
  if r.state = .running then
    (r.liveEpochs.filter fun e => e.openMinute + r.window ≤ s.clock.minutes).foldl
      (fun s e => (s.expireEpoch slot true e).askAgain slot) s
  else s

/-- The expiry pass (R51): the rings in the order of their numbers. -/
def State.expiryPass (s : State) : State := ringNumbers.foldl State.expireRing s

/-! ### Tags and tag ranges -/

/-- The tags of a range are set to empty. -/
def clearTags (start size : Nat) (tags : Table (Option Nat)) : Table (Option Nat) :=
  tags.filter fun x => !(start ≤ x.1 && x.1 < start + size)

/-- The tags of a range, from its ordinal `position` on, that hold `serial` are set to empty (R58). -/
def sweepTags (start position size serial : Nat) (tags : Table (Option Nat)) : Table (Option Nat) :=
  tags.filter fun x => !(start + position ≤ x.1 && x.1 < start + size && x.2 = some serial)

/-- The allocated tag ranges: those of the rings that are RUNNING or ERASING (R48). -/
def State.allocated (s : State) : List (Nat × Nat) :=
  (ringNumbers.filter fun n => (s.ring n).state ≠ .empty).map
    fun n => ((s.ring n).tagStart, (s.ring n).size)

/-- A run of `size` tags from `start` lies in the tag store and outside every allocated range (R48). -/
def State.rangeFree (s : State) (start size : Nat) : Bool :=
  start + size ≤ tagStoreSize
    && s.allocated.all fun a => start + size ≤ a.1 || a.1 + a.2 ≤ start

/-- First fit (R48): the lowest start of a free run. The lowest is 0 or the end of an allocated range. -/
def State.firstFit (s : State) (size : Nat) : Option Nat :=
  let starts := (0 :: s.allocated.map fun a => a.1 + a.2).filter fun x => s.rangeFree x size
  starts.foldl (fun best x => match best with | none => some x | some b => some (min b x)) none

/-! ### The sweeper (R58, R59) -/

/-- The sweeper begins the head sweep when it is idle and the queue is not empty (R58). -/
def State.beginSweep (s : State) : State :=
  match s.sweep, s.sweepQueue with
  | none, q :: rest => s.setSweeps (some ⟨q.slot, q.serial, 0⟩) rest
  | _, _ => s

/-- The sweep in progress passes the next tag of the range (R58). -/
def State.passTag (s : State) : State :=
  match s.sweep with
  | none => s
  | some w =>
    let r := s.ring w.slot
    if w.position < r.size then
      let s := if s.tagAt (r.tagStart + w.position) = some w.serial
        then s.setTag (r.tagStart + w.position) none else s
      s.setSweeps (some { w with position := w.position + 1 }) s.sweepQueue
    else s

/-- The end of a sweep in the ring unit: the tags not yet passed are passed (log 12) and the epoch's entry leaves
the list (R59). -/
def State.closeSweep (s : State) (w : RunningSweep) : State :=
  let r := s.ring w.slot
  let s := { s with tags := sweepTags r.tagStart w.position r.size w.serial s.tags }
  let s := s.setSweeps none s.sweepQueue
  s.setRing w.slot
    { r with epochs := r.epochs.filter (fun e => !(e.serial = w.serial && e.state = .sweeping))
             changed := true }

/-- The transfers of the ring's held list that await a serial, in list order (R56). -/
def RingSlot.awaiting (r : RingSlot) (serial : Nat) : List Nat :=
  (r.held.filter fun h => h.2 = serial).map (·.1)

/-- The sweeps of a ring stop: the running one, and those in the queue (R58). -/
def State.stopSweeps (s : State) (slot : Nat) : State :=
  s.setSweeps (if s.sweep.any (fun w => w.slot = slot) then none else s.sweep)
    (s.sweepQueue.filter fun q => q.slot ≠ slot)

end Sys2Proof.Machine
end

