-- ==== Sys2Proof/Machine/Slots.lean ====
section
/-! DEFINITION. The ends of sessions and the erasure of slots (R28, R29, R62, R63, R156 to R158, R71). -/

namespace Sys2Proof.Machine

/-! ### The end of an export session -/

/-- Transfers leave a hold and become ACTIVE (R90, R56, R153). -/
def State.activate (s : State) (tags : List Nat) : State :=
  s.setTransfers (s.transfers.map fun t => if tags.contains t.tag then { t with state := .active } else t)

/-- The session becomes NONE with an end cause: the transit key is destroyed, both lists are emptied, their
transfers become ACTIVE or are no longer held back (R156, R157, R158). A waiting EXPORT-END is answered. The transfers of the held list
become ACTIVE together, and then request their bursts together; that is the model's choice (log 41). -/
def State.endSession (s : State) (cause : EndCause) : State :=
  let heldTags := s.session.held.map (·.1)
  let s := s.modSession fun x =>
    { x with
      state := .idle, endCause := some cause, advancePending := false, keyPresent := false
      held := [], heldBack := [] }
  let s := (s.destroyKey .transit).activate heldTags
  s.answerIf .exportEnd .ok

/-- The session's slot enters ERASING by SLOT-DROP or by expiry (R158). -/
def State.closeSession (s : State) (n : Nat) : State :=
  if s.session.state ≠ .idle ∧ s.session.slot = some n then
    (s.endSession .closed).raise .moveEnded (some n)
  else s

/-- The session is ENDING and no READ of its slot is ACTIVE, HELD or ENDING (R157). -/
def State.sessionOver (s : State) (n : Nat) : Bool :=
  s.session.state = .ending && !(s.transfers.any fun t => t.state ≠ .queued && s.readsSlot t n)

/-- An ENDING session with no READ of its slot ACTIVE, HELD or ENDING becomes NONE (R157): a MOVING slot
returns to FINISHED and MOVE-ENDED is raised. -/
def State.finishSession (s : State) : State :=
  match s.session.slot with
  | none => s
  | some n =>
    if s.sessionOver n then
      let r := s.recSlot n
      let s := if r.state = .moving then s.setRec n { r with state := .finished, changed := true } else s
      (s.endSession .ended).raise .moveEnded (some n)
    else s

/-- The session becomes ENDING (R157): the QUEUED READs of its slot leave the issue queue and are held
back. -/
def State.beginEnding (s : State) : State :=
  match s.session.slot with
  | none => s
  | some n =>
    if s.session.state = .active then
      let back := s.issueQueue.filter fun tag => (s.transfer tag).any fun t => s.readsSlot t n
      let s := s.setIssueQueue (s.issueQueue.filter fun tag => !back.contains tag)
      s.modSession fun x => { x with state := .ending, heldBack := x.heldBack ++ back }
    else s

/-! ### Erasure -/

/-- Each VALID entry naming the slot becomes EMPTY, or RETIRING while it is in use (R16). -/
def State.retireEntries (s : State) (n : Nat) : State :=
  (s.extents.filter fun x => x.2.state = .valid && x.2.slot = n).foldl
    (fun s x => s.setExtent x.1 (if x.2.inUse = 0 then {} else { x.2 with state := .retiring })) s

/-- Some extent entry names the slot (R29, R63). -/
def State.named (s : State) (n : Nat) : Bool := s.extents.any fun x => x.2.state ≠ .empty && x.2.slot = n

/-- A recording slot accepts no erasure unless it is OPEN, FINISHED or MOVING (R28). -/
def RecSlot.erasable (r : RecSlot) : Bool := r.state = .opened || r.state = .finished || r.state = .moving

/-- A recording slot goes to ERASING (R28): its key is destroyed, its entries retired, its undelivered output
withdrawn (R98), the session on it ended, the jobs naming it as target ended, a pending finish answered
SLOT-STATE, and its erasure demanded from the store. Two points are the model's choice: undelivered blocks of the chunk above the cursor of
a MOVE are withdrawn CLOSED with the rest, not OUT-OF-ORDER (log 42), and a SLOT-FINISH that made the slot FINISHED already is not answered
here, but waits for the write that carries the erasure (log 44). -/
def State.eraseSlot (s : State) (n : Nat) : State :=
  let r := s.recSlot n
  if r.erasable then
    let s := s.setRec n { r with state := .erasing, changed := true, finishPending := false, erased := false }
    let s := (s.destroyKey (.slot n)).retireEntries n
    let s := (s.withdrawOutput (Origin.isOfSlot n) .closed).closeSession n
    let s := s.endJobs fun j => j.target = n
    let s := s.answerIf (.finishPending n) .slotState
    s.demand (.slot n)
  else s

/-- A recording slot expires: it goes to ERASING and SLOT-EXPIRED is raised (R28, R71). That the MOVE-ENDED of a session this closes (R158),
and the JOB-ENDED of the jobs it ends (R146), are raised before SLOT-EXPIRED is the model's choice (log 11). -/
def State.expireSlot (s : State) (n : Nat) : State :=
  let r := s.recSlot n
  if r.erasable && r.expiry.any (· ≤ s.clock.minutes) then
    (s.eraseSlot n).raise .slotExpired (some n)
  else s

/-- The recording slots the expiry check examines: those whose load event has come (R71). -/
def Loading.checked : Loading → List Nat
  | .finished | .draining => List.range 64
  | .timeRecord => []
  | .slot n => List.range n

/-- The expiry check of the recording slots, in number order (R71). -/
def State.expiryCheck (s : State) : State := s.mgmt.loading.checked.foldl State.expireSlot s

/-- A RUNNING ring slot goes to ERASING (R62): the jobs naming it as source end, every LIVE epoch expires without
a sweep, its key is destroyed, its sweeps stop, its held list is emptied, its entries retire. The transfers of the held list become
ACTIVE together, and then request their bursts together; that is the model's choice (log 41). -/
def State.eraseRing (s : State) (n : Nat) : State :=
  let r := s.ring n
  let s := s.setRing n { r with state := .erasing, held := [], changed := true }
  let s := s.endJobs fun j => j.source = n
  let s := r.liveEpochs.foldl (fun s e => s.expireEpoch n false e) s
  let s := ((s.destroyKey (.slot n)).stopSweeps n).activate (r.held.map (·.1))
  (s.withdrawOutput (Origin.isOfSlot n) .closed).retireEntries n

/-- An ERASING recording slot whose erasure is written and that no entry names becomes EMPTY (R29). -/
def State.emptyRec (s : State) (n : Nat) : State :=
  let r := s.recSlot n
  if r.state = .erasing && r.erased && !s.named n then
    (s.setRec n { persisting := r.persisting }).answerIf (.drop n) .ok
  else s

/-- An ERASING ring slot that no entry names becomes EMPTY: its tags are cleared and its range freed (R63). -/
def State.emptyRing (s : State) (n : Nat) : State :=
  let r := s.ring n
  if r.state = .erasing && !s.named n then
    let s := { s with tags := clearTags r.tagStart r.size s.tags }
    (s.setRing n {}).answerIf (.drop n) .ok
  else s

/-- The emptying of the slots whose conditions have come to be met (R29, R63). -/
def State.emptySlots (s : State) : State :=
  ringNumbers.foldl State.emptyRing ((List.range 64).foldl State.emptyRec s)

/-- A MOVE completes (R156): the session becomes NONE with end cause DONE, the slot goes to ERASING with all the
effects of R28, MOVE-DONE is raised. -/
def State.completeMove (s : State) (n : Nat) : State :=
  ((s.endSession .completed).eraseSlot n).raise .moveDone (some n)

end Sys2Proof.Machine
end

