-- ==== Sys2Proof/Machine/JobRun.lean ====
section
/-! DEFINITION. The running of an adoption job (sections 9.3 to 9.5): start, chunks, classification, pauses. -/

namespace Sys2Proof.Machine

/-- The source ordinal of the job's current chunk (R133). -/
def State.sourceOrdinal (s : State) (j : Job) : Nat := (j.firstSource + j.done) % (s.ring j.source).size

/-- The target ordinal of the job's current chunk (R133). -/
def Job.targetOrdinal (j : Job) : Nat := j.firstTarget + j.done

/-- The head job's current chunk begins (R138): lost when its source ordinal is not mapped, else a background READ of
the chunk is requested under a reference on its entry. -/
def State.beginChunk (s : State) (j : Job) : State :=
  match s.reverseLookup j.source (s.sourceOrdinal j) with
  | none => s.loseChunk
  | some (e, p) =>
      let s := (s.takeReference e).modJobs fun u =>
        { u with reference := some e, command := some ⟨.read, s.chunkBlock p⟩, kept := [], recoded := []
                 sent := 0 }
      s.modHead fun j => { j with stage := .read }

/-- One thing the head job does by itself when its condition holds, or none (R137, R138, R141, R144). -/
def State.jobStep (s : State) : Option State :=
  match s.headJob with
  | none => none
  | some j =>
    match j.state with
    | .waiting => if s.pauseCause then none else some (s.modHead fun j => { j with state := .starting })
    | .starting =>
        if s.pauseCause then some (s.modHead fun j => { j with state := .waiting })
        else
          match s.forcedOpen j.source with
          | (_, .fence _ _) => some s.askForced
          | _ => none
    | .running =>
        if j.stage = .idle then
          if j.count ≤ j.done then some (s.jobDone j)
          else if s.pauseCause then some (s.modHead fun j => { j with state := .paused })
          else some (s.beginChunk j)
        else if s.disk.healthState = .cutoff ∨ (j.stage = .read ∧ s.jobs.command.isSome ∧ s.pauseCause) then
          some (s.discardChunk.modHead fun j => { j with state := .paused })
        else none
    | .paused => if s.pauseCause then none else some (s.modHead fun j => { j with state := .running })
    | .ending => none

/-- The head job does all it can at this event; `n` bounds the number of things. -/
def State.jobLoop : Nat → State → State
  | 0, s => s
  | n + 1, s =>
    match s.jobStep with
    | none => s
    | some s' => s'.jobLoop n

/-- A bound on what the jobs of the queue can do within one event: each chunk at most once, and four changes of
state a job. -/
def State.jobBound (s : State) : Nat := (s.jobs.queue.map fun j => j.count - j.done + 4).sum + 1

/-- The job unit's part of an event: starts, pauses, resumes, chunks begun, jobs completed (R137, R138, R141, R144). -/
def State.jobRun (s : State) : State := s.jobLoop s.jobBound

/-- The epoch of a serial was opened at or after the forced open (R137): it is the epoch of the forced sequence, or
stands after it in the list, or the forced epoch has left the list. -/
def RingSlot.atOrAfterForced (r : RingSlot) (forced serial : Nat) : Bool :=
  match r.epochs.findIdx? (fun e => e.sequence = forced), r.epochs.findIdx? (fun e => e.serial = serial) with
  | some i, some k => i ≤ k
  | _, _ => true

/-- How a source chunk is classified at the end of its READ (R139). -/
inductive ChunkClass where
  | lost | overtaken
  | copy (serial sequence : Nat)
  deriving DecidableEq, Repr

/-- The classification of the job's current chunk, by the source's state, the chunk's tag and the fence (R139,
R60). -/
def State.classifyChunk (s : State) (j : Job) : ChunkClass :=
  let r := s.ring j.source
  match s.tagAt (r.tagStart + s.sourceOrdinal j) with
  | none => .lost
  | some serial =>
    match r.epochOf serial with
    | some e =>
        if r.state = .running ∧ e.state = .live then
          if r.atOrAfterForced (j.forcedSequence.getD 0) serial then .overtaken else .copy serial e.sequence
        else .lost
    | none => .lost

/-- The disk reports success of the current chunk's READ (R139). -/
def State.jobReadDone (s : State) (j : Job) : State :=
  let s := s.releaseJobReference
  match s.classifyChunk j with
  | .lost => s.loseChunk
  | .overtaken => s.discardChunk.modHead fun j => { j with overtaken := j.overtaken + 1, done := j.done + 1 }
  | .copy serial sequence =>
      (s.modJobs fun u => { u with burst := some 0, recoded := [] }).modHead fun j =>
        { j with stage := .cipher, chunkEpoch := some (serial, sequence) }

/-- The disk reports success of the current chunk's WRITE (R141). -/
def State.jobWriteDone (s : State) : State :=
  s.discardChunk.modHead fun j => { j with copied := j.copied + 1, done := j.done + 1 }

/-- The disk reports success of the job's command (R139, R141, R145). -/
def State.jobSucceeded (s : State) : State :=
  match s.headJob with
  | none => s
  | some j =>
    match j.state, j.stage with
    | .ending, stage => s.endingComplete j (stage = .write)
    | _, .write => s.jobWriteDone
    | _, _ => s.jobReadDone j

/-- The ciphering of burst 31 has ended: the target lookup and the WRITE request (R141). -/
def State.requestTargetWrite (s : State) : State :=
  match s.headJob with
  | none => s
  | some j =>
    match s.reverseLookup j.target j.targetOrdinal with
    | none => s.endJob .notFound j
    | some (e, p) =>
        let s := (s.takeReference e).modJobs fun u =>
          { u with reference := some e, command := some ⟨.write, s.chunkBlock p⟩, sent := 0 }
        s.modHead fun j => { j with stage := .write }

end Sys2Proof.Machine
end

