-- ==== Sys2Proof/Machine/Arbiter.lean ====
section
/-! DEFINITION. The cipher engine and its arbiter (chapter 7), and what a burst is decided to become at its take
(sections 6.4 and 6.5, 3.6, 3.8, 10.3, 10.4). -/

namespace Sys2Proof.Machine

/-! ### The read decision -/

/-- What a read burst is decided to become (R96). -/
inductive ReadDecision where
  | zero (reason : Reason)
  | slotKey
  | epochKey (serial : Nat)
  | transit
  | floorHold
  deriving DecidableEq, Repr

/-- The classification of a ring chunk (R60). -/
def State.classifyRing (s : State) (slot c : Nat) : ReadDecision :=
  let r := s.ring slot
  if r.state = .running then
    match s.tagAt (r.tagStart + c) with
    | none => .zero .unwritten
    | some serial => if r.isLive serial then .epochKey serial else .zero .expired
  else .zero .closed

/-- The decision of a read burst of the session's slot (R152, R153). -/
def State.exportDecision (s : State) (slot c : Nat) : ReadDecision :=
  let r := s.recSlot slot
  match s.session.mode with
  | some .copy =>
      if c < r.floor then .zero .moved else if r.length ≤ c then .zero .unwritten else .transit
  | _ =>
      let cursor := s.session.cursor.getD 0
      if c < cursor then .zero .moved
      else if r.length ≤ c then .zero .outOfOrder
      else if c = cursor ∨ (c = cursor + 1 ∧ s.session.advancePending) then
        if c < r.persistedFloor then .transit else .floorHold
      else .zero .outOfOrder

/-- The decision of a read burst of an assigned fragment, by the tests of R96 in order (log 25 for a state no
test names). -/
def State.readDecision (s : State) (slot c : Nat) : ReadDecision :=
  let r := s.recSlot slot
  if 64 ≤ slot then s.classifyRing slot c
  else if r.state = .erasing then .zero .closed
  else if s.session.state ≠ .idle ∧ s.session.slot = some slot then s.exportDecision slot c
  else if c < r.floor then .zero .moved
  else if r.state = .opened ∧ r.high ≤ c then .zero .unwritten
  else if r.state = .finished ∧ r.length ≤ c then .zero .unwritten
  else if r.state = .opened ∨ r.state = .finished then .slotKey
  else .zero .closed

/-! ### Takes -/

/-- The transfer's record once a burst of `n` blocks in chunk `p` is decided: its blocks no longer wait for a
burst. -/
def Transfer.cover (t : Transfer) (n p : Nat) : Transfer :=
  { t with input := t.input.drop n, covered := t.covered + n, ready := false, lastChunk := some p }

/-- A burst decided without ciphering: its blocks become zero blocks, and its first block is taken into first error
(R95, R96, R97). -/
def State.decideZero (s : State) (tag : Nat) (b : BurstRange) (reason : Reason) : State :=
  let p := s.chunkOf b.first
  s.modTransfer tag fun t =>
    ({ t.cover b.count p with
        output := t.output ++ List.replicate b.count (⟨zeroBlock, .zero⟩ : OutBlock) }).noteError b.first reason

/-- A burst becomes the burst in progress (R109). -/
def State.startBurst (s : State) (t : Transfer) (b : BurstRange) (composition : Composition) (tweak : Nat)
    (origins : List Origin) : State :=
  let p := s.chunkOf b.first
  let b' : Burst :=
    { owner := .tag t.tag, first := b.first, inputs := t.input.take b.count, composition, tweak, origins
      cancellable := false }
  let s := s.modEngine fun e => { e with burst := some b' }
  s.modTransfer t.tag fun t => t.cover b.count p

/-- A burst given back at a hold: the transfer becomes HELD (R90). -/
def State.giveBack (s : State) (tag : Nat) : State :=
  s.modTransfer tag fun t => { t with state := .held, ready := false }

/-- The high ordinal of an OPEN slot rises at a write burst into ordinal `c`, and its record is demanded from the
store (R23). -/
def State.raiseHigh (s : State) (n c : Nat) : State :=
  let r := s.recSlot n
  if r.state = .opened ∧ r.high < c + 1 then
    (s.setRec n { r with high := c + 1, changed := true }).demand (.slot n)
  else s

/-- The block was deciphered outside a session and lies below a new floor of its slot (R153). -/
def Origin.isPlainBelow (slot floor : Nat) : Origin → Bool
  | .plain n c => n = slot && c < floor
  | _ => false

/-- The hold of a MOVE burst of chunk `c` (R153): a floor write demand when `c` is not below the floor yet; the
transfer becomes HELD and joins the session's held list. -/
def State.holdForFloor (s : State) (tag n c : Nat) : State :=
  let r := s.recSlot n
  let floor := min r.length (c + 64)
  let s :=
    if r.floor ≤ c then (s.demandFloor n floor).withdrawOutput (Origin.isPlainBelow n floor) .moved else s
  (s.giveBack tag).modSession fun x => { x with held := x.held ++ [(tag, c)] }

/-- The hold of a write burst for the sweep of a serial (R56). -/
def State.holdForSweep (s : State) (tag n serial : Nat) : State :=
  let r := s.ring n
  (s.setRing n { r with held := r.held ++ [(tag, serial)] }).giveBack tag

/-- The origins of a transit-enciphered burst: which of its blocks is block-in-chunk 255 (R154). -/
def transitOrigins (slot c first count : Nat) : List Origin :=
  (List.range count).map fun i => .transit slot c (first + i = 255)

/-- The take of a read burst (R96, R109). -/
def State.takeRead (s : State) (t : Transfer) (b : BurstRange) : State :=
  match b.fragment.entry with
  | none => s.decideZero t.tag b .unassigned
  | some e =>
    let x := s.extent e
    let c := x.ordinalOf (s.chunkOf b.first)
    let bic := s.inChunk b.first
    let tweak := tweakOf c bic
    match s.readDecision x.slot c with
    | .zero reason => s.decideZero t.tag b reason
    | .slotKey =>
      match s.keyPair (.slot x.slot) with
      | none => s.decideZero t.tag b .closed
      | some k => s.startBurst t b (.decipher k) tweak (List.replicate b.count (.plain x.slot c))
    | .epochKey serial =>
      match s.keyPair (.epoch x.slot serial) with
      | none => s.decideZero t.tag b .expired
      | some k => s.startBurst t b (.decipher k) tweak (List.replicate b.count (.epoch x.slot serial))
    | .transit =>
      match s.keyPair (.slot x.slot), s.keyPair .transit with
      | some k, some k' =>
        let s := s.startBurst t b (.transit k k') tweak (transitOrigins x.slot c bic b.count)
        if s.session.mode = some .move ∧ s.session.cursor = some c ∧ bic + b.count = 256 then
          s.modSession fun y => { y with advancePending := true }
        else s
      | _, _ => s.decideZero t.tag b .closed
    | .floorHold => s.holdForFloor t.tag x.slot c

/-- The take of a write burst into a recording slot (R93; log 25 for a state the spec says cannot be found). -/
def State.takeRecWrite (s : State) (t : Transfer) (b : BurstRange) (n c tweak : Nat) : State :=
  match (s.recSlot n).state, s.keyPair (.slot n) with
  | .opened, some k =>
      (s.startBurst t b (.encipher k) tweak (List.replicate b.count .ciphertext)).raiseHigh n c
  | _, _ => s.decideZero t.tag b .closed

/-- The encipherment of a ring write burst under the epoch its chunk's tag names (R53, R94). -/
def State.startRingWrite (s : State) (t : Transfer) (b : BurstRange) (n c tweak : Nat) : State :=
  match s.tagAt ((s.ring n).tagStart + c) with
  | none => s.decideZero t.tag b .closed
  | some serial =>
    match s.keyPair (.epoch n serial) with
    | none => s.decideZero t.tag b .closed
    | some k => s.startBurst t b (.encipher k) tweak (List.replicate b.count .ciphertext)

/-- The take of a write burst into a ring slot (R94). -/
def State.takeRingWrite (s : State) (t : Transfer) (b : BurstRange) (n c tweak : Nat) : State :=
  if (s.ring n).state = .running then
    if s.decisionDue n c (t.lastChunk ≠ some (s.chunkOf b.first)) then
      match s.decideEpoch n c with
      | (s', some serial) => s'.holdForSweep t.tag n serial
      | (s', none) => s'.startRingWrite t b n c tweak
    else s.startRingWrite t b n c tweak
  else s.decideZero t.tag b .closed

/-- The take of a write burst (R93, R94, R95, R109). -/
def State.takeWrite (s : State) (t : Transfer) (b : BurstRange) : State :=
  match b.fragment.entry with
  | none => s.decideZero t.tag b .unassigned
  | some e =>
    let x := s.extent e
    let c := x.ordinalOf (s.chunkOf b.first)
    let tweak := tweakOf c (s.inChunk b.first)
    if x.slot < 64 then s.takeRecWrite t b x.slot c tweak else s.takeRingWrite t b x.slot c tweak

/-- A foreground grant: the round-robin position becomes the tag and the share count rises while a background burst
waits (R112, R113); the burst is decided at its take (R109). -/
def State.takeForeground (s : State) (t : Transfer) (b : BurstRange) : State :=
  let s := s.modEngine fun e =>
    { e with position := t.tag, share := if s.jobs.burst.isSome then min 15 (e.share + 1) else e.share }
  if t.kind = .write then s.takeWrite t b else s.takeRead t b

/-- A background grant of burst `k` of the current chunk (R113, R115, R140; log 24 for an absent key). -/
def State.takeBackground (s : State) (j : Job) (k : Nat) : State :=
  let s := (s.modEngine fun e => { e with share := 0 }).modJobs fun u => { u with burst := none }
  let c := s.sourceOrdinal j
  let c' := j.targetOrdinal
  let keys := match j.chunkEpoch with
    | some (serial, sequence) =>
        if (s.ring j.source).epochs.any fun e => e.serial = serial && e.sequence = sequence && e.state = .live then
          match s.keyPair (.epoch j.source serial), s.keyPair (.slot j.target) with
          | some a, some b => some (a, b)
          | _, _ => none
        else none
    | none => none
  match keys with
  | none => s.loseChunk
  | some (a, b) =>
      let burst : Burst :=
        { owner := .job, first := k, inputs := (s.jobs.kept.drop (8 * k)).take 8, composition := .adopt a b
          tweak := tweakOf c (8 * k), targetTweak := tweakOf c' (8 * k)
          origins := List.replicate 8 .ciphertext, cancellable := s.engine.cancels < 3 }
      (s.modEngine fun e => { e with burst := some burst }).raiseHigh j.target c'

/-! ### Requests and grants -/

/-- The transfer waits in a held list (R56, R153). -/
def State.inHeldList (s : State) (tag : Nat) : Bool :=
  s.session.held.any (fun h => h.1 = tag)
    || ringNumbers.any fun n => (s.ring n).held.any fun h => h.1 = tag

/-- A transfer requests its next burst: it is PROTECTED and ACTIVE or ENDING, its previous burst is done, and the
blocks of the burst have arrived (R89, R112). -/
def State.canRequest (s : State) (t : Transfer) : Bool :=
  t.handling = .guarded && (t.state = .active || t.state = .ending) && !t.ready
    && !s.engine.burst.any (fun b => b.owner = .tag t.tag) && !s.inHeldList t.tag
    && (s.nextBurst t).any fun b => b.count ≤ t.input.length

/-- A cancellable background burst in progress is cancelled and waits again (R114, R115). -/
def State.cancelBackground (s : State) : State :=
  match s.engine.burst with
  | some b =>
    if b.owner = .job && b.cancellable then
      (s.modEngine fun e => { e with burst := none, cancels := e.cancels + 1 }).modJobs fun u =>
        { u with burst := some b.first }
    else s
  | none => s

/-- The foreground bursts whose conditions hold become ready, cancelling a cancellable background burst (R89,
R112, R114). -/
def State.raiseRequests (s : State) : State :=
  if s.transfers.any s.canRequest then
    (s.setTransfers (s.transfers.map fun t => if s.canRequest t then { t with ready := true } else t)).cancelBackground
  else s

/-- The ready foreground burst whose tag comes first after the round-robin position (R112). -/
def State.nextReady (s : State) : Option Transfer :=
  (List.range 16).findSome? fun i =>
    s.transfers.find? fun t => t.ready && t.tag = (s.engine.position + 1 + i) % 16

/-- What the arbiter grants (R112). -/
inductive Grant where
  | foreground (t : Transfer)
  | background (k : Nat)
  deriving DecidableEq, Repr

/-- The arbiter's choice among the waiting bursts (R112, R113). -/
def State.chooseGrant (s : State) : Option Grant :=
  let n := s.mgmt.setup.bgShare
  match s.jobs.burst, s.nextReady with
  | some k, some t => if 1 ≤ n ∧ s.engine.share = n then some (.background k) else some (.foreground t)
  | some k, none => some (.background k)
  | none, some t => some (.foreground t)
  | none, none => none

/-- Make a grant. -/
def State.take (s : State) : Grant → State
  | .foreground t =>
      match s.nextBurst t with
      | some b => s.takeForeground t b
      | none => s.modTransfer t.tag fun t => { t with ready := false }
  | .background k =>
      match s.headJob with
      | some j => s.takeBackground j k
      | none => s.withdrawJobBurst

/-- Requests, and grants while the engine is free and a burst waits (R89, R112); `n` bounds the number of grants. -/
def State.grantLoop : Nat → State → State
  | 0, s => s
  | n + 1, s =>
    let s := s.raiseRequests
    if s.engine.burst.isSome then s
    else
      match s.chooseGrant with
      | none => s
      | some g => (s.take g).grantLoop n

/-- A bound on the grants within one event: each covers a waiting block, ends in a hold, or is the job's. -/
def State.grantBound (s : State) : Nat :=
  (s.transfers.map fun t => t.input.length + 2).sum + 2

/-- The arbiter's part of an event (R112). -/
def State.grant (s : State) : State := s.grantLoop s.grantBound

/-- Transfers released from a hold leave its list by `leave` and request their given-back bursts, one after the other in list order
(R56, R90, R153): one still in the list requests nothing, also when its disk command has ended (log 18). -/
def State.releaseHeld (s : State) (leave : State → Nat → State) (tags : List Nat) : State :=
  tags.foldl (fun s tag => ((leave s tag).activate [tag]).grant) s

end Sys2Proof.Machine
end

