-- ==== Sys2Proof/Machine/Disk.lean ====
section
/-! DEFINITION. The disk port (chapter 8): the issue arbiter, timeouts, the disk-link reset, CUTOFF and link loss. -/

namespace Sys2Proof.Machine

/-! ### Issuing (R119 to R121, R123) -/

/-- The outstanding command of an owner (R119). -/
def State.outstandingOf (s : State) (o : Owner) : Option Outstanding :=
  s.disk.outstanding.find? fun c => c.owner = o

/-- A command of this owner is outstanding (R119). -/
def State.isOutstanding (s : State) (o : Owner) : Bool := s.disk.outstanding.any fun c => c.owner = o

/-- The command of an owner leaves its issue slot (R122). -/
def State.freeSlot (s : State) (o : Owner) : State :=
  s.modDisk fun d => { d with outstanding := d.outstanding.filter fun c => c.owner ≠ o }

/-- The timeout count at issue: T, or absent with T = 0 (R123). -/
def State.issueTimeout (s : State) : Option Nat :=
  if s.mgmt.setup.timeout = 0 then none else some s.mgmt.setup.timeout

/-- A job command of this stage is eligible (R121). -/
def State.eligible (s : State) (stage : JobStage) : Bool :=
  1 ≤ s.mgmt.setup.bgLimit
    && match s.disk.healthState with
      | .normal | .warning => true
      | .degraded => stage = .write
      | .cutoff => false

/-- The commands outstanding number fewer than D, the link is UP and the state is not CUTOFF (R120). -/
def State.mayIssue (s : State) : Bool :=
  s.disk.link = .up && s.disk.healthState ≠ .cutoff && s.disk.outstanding.length < s.mgmt.setup.depth

/-- The waiting job command, when it is eligible and no job command is outstanding (R120, R121). -/
def State.issuableJob (s : State) : Option JobCommand :=
  match s.jobs.command with
  | some c => if s.eligible c.stage && !s.jobOutstanding then some c else none
  | none => none

/-- The job command takes an issue slot and is sent to the disk (R120). -/
def State.issueJob (s : State) (c : JobCommand) : State :=
  let s := s.modDisk fun d =>
    { d with outstanding := d.outstanding ++ [⟨.job, some c.stage, s.issueTimeout⟩] }
  (s.modJobs fun u => { u with command := none }).emit (.jobCommand c.stage c.first)

/-- The transfer of this tag, at the head of the queue, leaves it, takes an issue slot and becomes ACTIVE (R89, R120). -/
def State.issueTransfer (s : State) (tag : Nat) : State :=
  let s := s.setIssueQueue s.issueQueue.tail
  match s.transfer tag with
  | none => s
  | some t =>
    let s := s.modDisk fun d =>
      { d with outstanding := d.outstanding ++ [⟨.tag tag, none, s.issueTimeout⟩] }
    (s.modTransfer tag fun t => { t with state := .active }).emit (.command tag t.kind t.first t.count)

/-- The issue arbiter repeats its choice while a command can be issued; `n` bounds the number of issues (R120). -/
def State.issueLoop : Nat → State → State
  | 0, s => s
  | n + 1, s =>
    if s.mayIssue then
      match s.issuableJob, s.issueQueue with
      | some c, _ => (s.issueJob c).issueLoop n
      | none, tag :: _ => (s.issueTransfer tag).issueLoop n
      | none, [] => s
    else s

/-- The issue arbiter's part of an event (R120). -/
def State.issueAll (s : State) : State := s.issueLoop (s.issueQueue.length + 1)

/-! ### Aborts -/

/-- Every outstanding command is aborted and its slot freed: its transfer meets an imposed end, the job command is
handed to the job unit (R125, R128). Transfers end in table order (log 11). -/
def State.abortOutstanding (s : State) (reason : Reason) : State :=
  let tags := (s.transfers.map Transfer.tag).filter fun tag => s.isOutstanding (.tag tag)
  let job := s.jobOutstanding
  let s := s.modDisk fun d => { d with outstanding := [] }
  let s := tags.foldl (fun s tag => s.imposeEnd reason tag) s
  if job then s.jobAborted else s

/-- A disk-link reset begins: commands aborted, RESET-SEEN set, the link RESETTING. A reset already in progress is joined
(R125). -/
def State.beginReset (s : State) : State :=
  if s.disk.link = .resetting then s
  else (s.abortOutstanding .aborted).modDisk fun d =>
    { d with resetSeen := true, link := .resetting, resetTicks := 0, speed := none }

/-- The port enters CUTOFF (R128): the state and its notice, every outstanding command aborted, every disk-bound transfer
that is QUEUED or had its command outstanding ended CUTOFF, the job command aborted. -/
def State.enterCutoff (s : State) : State :=
  let s := s.setHealth s.disk.health .cutoff
  let queued := (s.transfers.filter fun t =>
    t.kind.diskBound && (t.state = .queued || s.isOutstanding (.tag t.tag))).map Transfer.tag
  let job := s.jobOutstanding
  let s := s.modDisk fun d => { d with outstanding := [] }
  let s := queued.foldl (fun s tag => s.imposeEnd .cutoff tag) s
  if job then s.jobAborted else s

/-- The disk link is lost (R129): the link becomes DOWN and the port enters CUTOFF unless it is there already. -/
def State.loseLink (s : State) : State :=
  let s := s.modDisk fun d => { d with link := .down, speed := none }
  if s.disk.healthState = .cutoff then s else s.enterCutoff

/-- The disk-link reset in progress ends with failure: a link loss, and a waiting LINK-RESTORE is answered LINK-DOWN (R125,
R129, R131). -/
def State.failReset (s : State) : State := s.loseLink.answerIf .linkRestore .linkDown

/-- The disk-link reset in progress ends with success at a speed (R125, R178); at the end of a LINK-RESTORE the count is 0 and
the state NORMAL (R131). -/
def State.endReset (s : State) (speed : LinkSpeed) : State :=
  let s := s.modDisk fun d => { d with link := .up, speed := some speed }
  if s.waits .linkRestore then (s.setHealth 0 .normal).answer .ok else s

/-! ### Timeouts -/

/-- The commands of these owners time out at one event (R124): each scored, its transfer ended TIMEOUT, and a disk-link
reset made, without re-establishing the link when the rises bring CUTOFF. -/
def State.timeOut (s : State) (owners : List Owner) : State :=
  let hit := s.disk.outstanding.filter fun c => owners.contains c.owner
  if hit.isEmpty then s
  else
    let scored := s.scoreBad hit.length
    let s := scored.1.modDisk fun d =>
      { d with timeoutSeen := true, outstanding := d.outstanding.filter fun c => !owners.contains c.owner }
    let tags := (s.transfers.map Transfer.tag).filter fun tag => hit.any fun c => c.owner = .tag tag
    let s := tags.foldl (fun s tag => s.imposeEnd .timeout tag) s
    let s := if hit.any (fun c => c.owner = .job) then s.jobAborted else s
    if scored.2 then
      ((s.abortOutstanding .aborted).modDisk fun d =>
        { d with resetSeen := true, link := .down, speed := none }).enterCutoff
    else s.beginReset

/-- The timeout count of a command one tick later (R123). -/
def Outstanding.tick (c : Outstanding) : Outstanding := { c with timeout := c.timeout.map (· - 1) }

/-- A tick at the disk port (R66, R123, R125): it counts down the timeouts, and the commands that reach 0 time out; while
the link is RESETTING it counts towards the failure of the reset at the 100th tick. -/
def State.tickPort (s : State) : State :=
  if s.disk.link = .resetting then
    let s := s.modDisk fun d => { d with resetTicks := d.resetTicks + 1 }
    if 100 ≤ s.disk.resetTicks then s.failReset else s
  else
    let s := s.modDisk fun d => { d with outstanding := d.outstanding.map Outstanding.tick }
    s.timeOut ((s.disk.outstanding.filter fun c => c.timeout = some 0).map Outstanding.owner)

end Sys2Proof.Machine
end

