-- ==== Sys2Proof/Machine/Settle.lean ====
section
/-! DEFINITION. What follows within the event that brings it about (log 11): the end of a drain (R169, R100), the reload of a
RESTART (R41), and `State.settle`, which every meaning that can bring such a thing about ends with. -/

namespace Sys2Proof.Machine

/-! ### DRAINING -/

/-- Nothing holds the drain: no PROTECTED transfer is ACTIVE, HELD or ENDING, and no job chunk is in flight (R169). -/
def State.drained (s : State) : Bool :=
  s.mgmt.mode = .draining && !(s.transfers.any fun t => t.handling = .guarded && t.state ≠ .queued)
    && !s.chunkInFlight

/-- A held-back PROTECTED transfer is turned over to PASS-THROUGH (R100). -/
def Transfer.turnOver (t : Transfer) : Transfer :=
  { t with fragments := [], writeSlots := [], handling := .passThrough }

/-- A transfer the turnover reaches (R100). -/
def Transfer.turns (t : Transfer) : Bool := t.handling = .guarded && t.state = .queued

/-- The turnover at the end of DRAINING (R100): references and writes in flight released, and no transfer held back by DRAINING any
longer. -/
def State.turnOver (s : State) : State :=
  let turning := s.transfers.filter Transfer.turns
  let s := s.setTransfers (s.transfers.map fun t =>
    { (if t.turns then t.turnOver else t) with drainHeld := false })
  turning.foldl State.releaseTransfer s

/-- The end of DRAINING: the mode becomes CONFIG and held-back transfers are turned over (R169, R100). -/
def State.drainEnd (s : State) : State := if s.drained then (s.setMode .config).turnOver else s

/-! ### RESTART -/

/-- The store write queue of a RESTART has drained: the reload of the slot table begins (R41). -/
def State.beginReload (s : State) : State :=
  if s.mgmt.loading = .draining && s.store.queue.isEmpty && s.store.writer.isNone then
    s.modMgmt fun m => { m with loading := .slot 0 }
  else s

/-! ### Settling -/

/-- What the blocks do at an event once their conditions have come to hold: the engine's grants and the job unit's work, the
end of an ENDING session, the end of a drain, the joining of the issue queue, issues, slots emptied, the next store write, the reload,
the next sweep. -/
def State.settle (s : State) : State :=
  s.grant.jobRun.grant.finishSession.drainEnd.joinReleased.issueAll.emptySlots.beginWrite.beginReload.beginSweep

end Sys2Proof.Machine
end

