-- ==== Sys2Proof/Machine/Formats.lean ====
section
/-! DEFINITION. The formats software sees (chapter 12): codes, the response block, the views, entries and records, and the fields
of a request block. -/

namespace Sys2Proof.Machine

/-! ### Codes (section 12.4) -/

/-- Result codes. -/
def Result.code : Result → Nat
  | .ok => 0
  | .pending => 1
  | .badRequest => 2
  | .wrongMode => 3
  | .noSlot => 4
  | .slotState => 5
  | .cls => 6
  | .overlap => 7
  | .range => 8
  | .noRoom => 9
  | .badWrap => 10
  | .backward => 11
  | .queueFull => 12
  | .notFound => 13
  | .notSet => 14
  | .linkDown => 15
  | .busy => 16

/-- Notice kind codes. -/
def NoticeKind.code : NoticeKind → Nat
  | .slotExpired => 1
  | .moveDone => 2
  | .moveEnded => 3
  | .jobDone => 4
  | .jobEnded => 5
  | .queueWarn => 6
  | .linkWarning => 7
  | .linkDegraded => 8
  | .linkCutoff => 9
  | .linkNormal => 10
  | .recordDamaged => 11
  | .clockLost => 12

/-- Slot state codes. -/
def SlotState.code : SlotState → Nat
  | .empty => 0
  | .opened => 1
  | .finished => 2
  | .moving => 3
  | .erasing => 4
  | .running => 5

/-- Class codes. -/
def SlotClass.code : SlotClass → Nat
  | .free => 0
  | .once => 1
  | .never => 2

/-- The class a code names. -/
def SlotClass.ofCode : Nat → Option SlotClass
  | 0 => some .free
  | 1 => some .once
  | 2 => some .never
  | _ => none

/-- Extent state codes. -/
def ExtentState.code : ExtentState → Nat
  | .empty => 0
  | .valid => 1
  | .retiring => 2

/-- Epoch state codes. -/
def EpochState.code : EpochState → Nat
  | .live => 0
  | .sweeping => 1

/-- Job state codes. -/
def JobState.code : JobState → Nat
  | .waiting => 0
  | .starting => 1
  | .running => 2
  | .paused => 3
  | .ending => 4

/-- Job stage codes. -/
def JobStage.code : JobStage → Nat
  | .idle => 0
  | .read => 1
  | .cipher => 2
  | .write => 3

/-- Job outcome codes. -/
def JobOutcome.code : JobOutcome → Nat
  | .completed => 1
  | .aborted => 2
  | .notFound => 3
  | .slotState => 4
  | .diskError => 5

/-- Mode codes. -/
def Mode.code : Mode → Nat
  | .starting => 0
  | .config => 1
  | .draining => 2
  | .run => 3

/-- Session state codes. -/
def SessionState.code : SessionState → Nat
  | .idle => 0
  | .active => 1
  | .ending => 2

/-- Session mode codes. -/
def ExportMode.code : ExportMode → Nat
  | .move => 1
  | .copy => 2

/-- The session mode a code names. -/
def ExportMode.ofCode : Nat → Option ExportMode
  | 1 => some .move
  | 2 => some .copy
  | _ => none

/-- End cause codes. -/
def EndCause.code : EndCause → Nat
  | .completed => 1
  | .ended => 2
  | .closed => 3

/-- Link state codes. -/
def LinkState.code : LinkState → Nat
  | .up => 0
  | .resetting => 1
  | .down => 2

/-- Health state codes. -/
def HealthState.code : HealthState → Nat
  | .normal => 0
  | .warning => 1
  | .degraded => 2
  | .cutoff => 3

/-- Link speed codes. -/
def speedCode : LinkSpeed → Nat
  | .gen1 => 1
  | .gen2 => 2
  | .gen3 => 3

/-- Restore source codes. -/
def RestoreSource.code : RestoreSource → Nat
  | .intact => 0
  | .damaged => 1

/-! ### The response block (section 12.2) -/

/-- The bytes of a list followed by zeros, `n` in all. -/
def padTo (n : Nat) (l : List Byte) : List Byte := (l ++ List.replicate n 0).take n

/-- The 512 bytes of a response: the 32-byte header and the 480-byte body (section 12.2). That the body length written is the number of body
bytes the model gives, up to the last field of the layout and 0 for a body of zeros, is the model's choice (log 43). -/
def Response.bytes (r : Response) : List Byte :=
  padTo 32 (le 2 r.kind ++ le 2 r.number ++ le 2 r.body.length ++ le 2 r.result.code ++ le 2 r.items
    ++ le 2 r.next ++ flagByte r.overflowed) ++ padTo 480 r.body

/-- The block an MRSP copies (R164): the response as it stands, or kind NONE, number 0, NOT-FOUND when none exists. -/
def responseBlock (r : Option Response) : Block :=
  ofBytes 4096 (r.getD { kind := 0, number := 0, result := .notFound }).bytes

/-! ### Entries and views (section 12.2) -/

/-- The extent entry of EXTENT-SCAN, 16 bytes (R17). -/
def Extent.bytes (index : Nat) (e : Extent) : List Byte :=
  padTo 16 (le 2 index ++ le 1 e.state.code ++ le 1 e.exponent ++ le 4 e.base ++ le 4 e.firstOrdinal ++ le 1 e.slot
    ++ le 1 e.inUse)

/-- A byte of flags, the first at bit 0. -/
def flagsByte (flags : List Bool) : List Byte := le 1 (flags.foldr (fun b n => 2 * n + b.toNat) 0)

/-- The recording slot view (R34). -/
def RecSlot.view (number : Nat) (r : RecSlot) : List Byte :=
  le 1 number ++ le 1 r.state.code ++ le 1 r.cls.code ++ flagsByte [r.changed, r.persisting, r.finishPending]
    ++ le 4 r.high ++ le 4 r.length ++ padTo 4 (flagByte r.expiry.isSome) ++ le 4 (r.expiry.getD 0)
    ++ le 4 r.floor ++ le 4 r.persistedFloor ++ le 4 r.created ++ le 1 r.inFlight

/-- An epoch entry of the ring slot view, 12 bytes (R64). -/
def Epoch.bytes (e : Epoch) : List Byte :=
  padTo 4 (le 1 e.serial ++ le 1 e.state.code) ++ le 4 e.sequence ++ le 4 e.openMinute

/-- The ring slot view (R64). -/
def State.ringView (s : State) (n : Nat) : List Byte :=
  let r := s.ring n
  let running := (s.sweep.filter fun w => w.slot = n).map RunningSweep.serial
  le 1 n ++ le 1 r.state.code ++ le 1 r.cls.code ++ flagsByte [r.changed]
    ++ le 2 r.window ++ padTo 2 (le 1 r.epochLength) ++ le 4 r.size ++ le 4 r.tagStart
    ++ leOption 1 r.lastSerial ++ le 1 r.held.length ++ leOption 1 running
    ++ le 1 (s.sweepQueue.filter fun q => q.slot = n).length ++ padTo 2 (le 1 r.epochs.length) ++ le 4 r.sequence
    ++ r.epochs.flatMap Epoch.bytes

/-- The presence byte and the serial of a fence in the job view (R147). -/
def fenceBytes : Option Fence → List Byte
  | none => [0, 0]
  | some (.serial n) => 1 :: le 1 n
  | some .noEpoch => [2, 0]

/-- The job view, 32 bytes (R147). -/
def Job.view (j : Job) : List Byte :=
  le 1 j.number ++ le 1 j.state.code ++ le 1 j.stage.code ++ le 1 j.source ++ le 1 j.target ++ fenceBytes j.fence
    ++ [0] ++ le 4 j.firstSource ++ le 4 j.count ++ le 4 j.firstTarget ++ le 3 j.done ++ le 3 j.copied ++ le 3 j.lost
    ++ le 3 j.overtaken

/-- Bytes 3 to 14 of a notice entry (R174). -/
def NoticeDetails.bytes : NoticeDetails → List Byte
  | .nothing => List.replicate 12 0
  | .jobDone copied lost overtaken => [0, 0, 0] ++ le 3 copied ++ le 3 lost ++ le 3 overtaken
  | .jobEnded outcome chunk copied lost overtaken =>
      le 1 outcome.code ++ le 2 chunk ++ le 3 copied ++ le 3 lost ++ le 3 overtaken

/-- The notice entry, 15 bytes (R174). -/
def Notice.bytes (n : Notice) : List Byte :=
  le 1 n.kind.code ++ le 1 (n.subject.getD 0) ++ le 1 n.count ++ n.details.bytes

/-- The slot summary of SLOT-SCAN, 4 bytes (R35); persisting is clear for a ring slot. -/
def State.slotSummary (s : State) (n : Nat) : List Byte :=
  if n < 64 then
    let r := s.recSlot n
    le 1 n ++ le 1 r.state.code ++ le 1 r.cls.code ++ flagsByte [r.changed, r.persisting]
  else
    let r := s.ring n
    le 1 n ++ le 1 r.state.code ++ le 1 r.cls.code ++ flagsByte [r.changed]

/-- The body of SETUP and SETUP-READ (R170; log 14): the seven values, each at its width. -/
def Setup.bytes (u : Setup) : List Byte :=
  le 6 u.first ++ le 4 u.length ++ le 1 u.depth ++ le 1 u.bgLimit ++ le 1 u.bgShare ++ le 1 u.timeout
    ++ le 1 u.warnLevel

/-- The body of IDENT (R171; log 14). -/
def State.identBytes (s : State) : List Byte :=
  le 2 0x2E61 ++ le 2 4 ++ le 1 1 ++ le 1 64 ++ le 1 4 ++ le 2 2048 ++ le 3 131072 ++ le 1 16 ++ le 1 16 ++ le 1 8
    ++ le 1 32 ++ le 1 65 ++ le 1 s.mgmt.mode.code

/-- The body of CLOCK-READ (R72; log 14). -/
def Clock.bytes (c : Clock) : List Byte :=
  le 4 c.minutes ++ le 2 c.ticks ++ leOption 4 c.persisted ++ le 1 c.source.code ++ flagByte (c.minutes = maxCount)

/-- The body of LINK-VIEW (R130; log 14). -/
def State.linkBytes (s : State) : List Byte :=
  let d := s.disk
  le 1 d.link.code ++ leOption 1 (d.speed.map speedCode) ++ le 1 d.healthState.code ++ le 1 d.health
    ++ le 1 (d.outstanding.filter fun c => c.owner ≠ .job).length
    ++ le 1 (d.outstanding.filter fun c => c.owner = .job).length
    ++ le 1 s.issueQueue.length ++ flagByte d.timeoutSeen ++ flagByte d.failureSeen ++ flagByte d.resetSeen

/-- The body of EXPORT-OPEN (R151; log 14): the five fields R151 lists, also when the MOVE completes at the open (log 39). -/
def State.exportBytes (s : State) (mode : ExportMode) (n : Nat) : List Byte :=
  let r := s.recSlot n
  le 1 mode.code ++ le 1 n ++ le 3 r.length ++ leOption 3 (if mode = .move then s.session.cursor else none)
    ++ le 3 r.persistedFloor

/-- The body of EXPORT-VIEW (R160; log 14). -/
def State.sessionBytes (s : State) : List Byte :=
  let x := s.session
  let r := x.slot.map s.recSlot
  le 1 x.state.code ++ leOption 1 (x.mode.map ExportMode.code) ++ leOption 1 x.slot
    ++ leOption 1 (x.endCause.map EndCause.code)
    ++ leOption 3 (if x.mode = some .move then x.cursor else none) ++ flagByte x.advancePending
    ++ leOption 3 (r.map RecSlot.length) ++ leOption 3 (r.map RecSlot.floor) ++ leOption 3 (r.map RecSlot.persistedFloor)
    ++ le 4 x.chunksDelivered ++ flagByte x.keyPresent ++ le 1 x.held.length ++ le 1 x.heldBack.length

/-- The 2-byte result codes of EXTENT-LOAD and EXTENT-CLEAR (section 12.2). -/
def resultBytes (l : List Result) : List Byte := l.flatMap fun r => le 2 r.code

/-! ### The request block (R166, section 12.2) -/

/-- An optional 4-byte field of a request body: a presence byte of 0 means absent (R166). -/
def optionalField (b : Block) (off : Nat) : Option Nat :=
  if field b off 1 = 0 then none else some (field b (off + 1) 4)

/-- The extent description at offset `off` of a request block (section 12.2). -/
def descAt (b : Block) (off : Nat) : ExtentDesc :=
  { index := field b off 2, base := field b (off + 4) 4, exponent := field b (off + 3) 1, slot := field b (off + 12) 1
    firstOrdinal := field b (off + 8) 4 }

/-- The body length a request kind requires (R166, R176; log 14); none for a kind outside the catalogue. That a SLOT-OPEN requires its
expiry bytes also with a presence byte of 0 is the model's choice (log 14). -/
def requiredLength (kind items : Nat) : Option Nat :=
  match kind with
  | 0x01 => some 0
  | 0x02 => some 1
  | 0x03 => some 15
  | 0x04 => some 0
  | 0x05 => some 0
  | 0x06 => some 0
  | 0x07 => some 0
  | 0x08 => some 7
  | 0x09 => some 1
  | 0x0A => some 1
  | 0x0B => some 1
  | 0x0C => some 2
  | 0x0D => some 7
  | 0x0E => some (16 * items)
  | 0x0F => some (2 * items)
  | 0x10 => some 3
  | 0x11 => some 11
  | 0x12 => some 1
  | 0x13 => some 0
  | 0x14 => some 66
  | 0x15 => some 0
  | 0x16 => some 0
  | 0x17 => some 0
  | 0x18 => some 0
  | 0x19 => some 4
  | _ => none

/-- The item count of an EXTENT-LOAD or EXTENT-CLEAR is outside its range, so the request gives RANGE without the body-length
test (R166, R13, R15). -/
def itemsOutOfRange (kind items : Nat) : Bool :=
  (kind = 0x0E && 30 < items) || (kind = 0x0F && (items = 0 || 200 < items))

/-- The general tests on a request block: its kind is in the catalogue, its body length is at most 480 and not below what its
kind requires (R166; log 34). -/
def requestFormOk (kind bodyLength items : Nat) : Bool :=
  match requiredLength kind items with
  | none => false
  | some n => bodyLength ≤ 480 && (itemsOutOfRange kind items || n ≤ bodyLength)

/-- The request a block carries, by its kind, its fields read from the body at offset 32 (R166, section 12.2). -/
def requestOf (b : Block) : Option Instr :=
  let number := field b 2 2
  let items := field b 6 2
  let f := fun off n => field b (32 + off) n
  match field b 0 2 with
  | 0x01 => some (.ident number)
  | 0x02 => some (.mode number (f 0 1))
  | 0x03 => some (.setup number (f 0 6) (f 6 4) (f 10 1) (f 11 1) (f 12 1) (f 13 1) (f 14 1))
  | 0x04 => some (.setupRead number)
  | 0x05 => some (.restart number)
  | 0x06 => some (.noticeTake number)
  | 0x07 => some (.clockRead number)
  | 0x08 => some (.slotOpen number (f 0 1) (f 1 1) (optionalField b 34))
  | 0x09 => some (.slotFinish number (f 0 1))
  | 0x0A => some (.slotDrop number (f 0 1))
  | 0x0B => some (.slotView number (f 0 1))
  | 0x0C => some (.slotScan number (f 0 1) (f 1 1))
  | 0x0D => some (.ringOpen number (f 0 1) (f 1 1) (f 2 2) (f 4 3))
  | 0x0E => some (.extentLoad number items ((List.range (min 30 items)).map fun i => descAt b (32 + 16 * i)))
  | 0x0F => some (.extentClear number items ((List.range (min 200 items)).map fun i => f (2 * i) 2))
  | 0x10 => some (.extentScan number (f 0 2) (f 2 1))
  | 0x11 => some (.jobAdopt number (f 0 1) (f 1 3) (f 4 3) (f 7 1) (f 8 3))
  | 0x12 => some (.jobCancel number (f 0 1))
  | 0x13 => some (.jobScan number)
  | 0x14 => some (.exportOpen number (f 0 1) (f 1 1) (b.extractLsb' (8 * 34) 512))
  | 0x15 => some (.exportEnd number)
  | 0x16 => some (.exportView number)
  | 0x17 => some (.linkView number)
  | 0x18 => some (.linkRestore number)
  | 0x19 => some (.clockAdvance number (f 0 4))
  | _ => none

end Sys2Proof.Machine
end

