-- ==== Sys2Proof/Machine/Admission.lean ====
section
/-! DEFINITION. Commands on the controller port (sections 6.2 and 11.1): refusals, admission, the wait set of a FLUSH. -/

namespace Sys2Proof.Machine

/-- A refused command takes no record and is completed at once (R87). -/
def State.refuse (s : State) (tag : Nat) (reason : Reason) (block : Nat) : State :=
  s.complete tag (some (reason, block))

/-- An admitted transfer takes its record, behind those admitted before it (R88). -/
def State.addTransfer (s : State) (t : Transfer) : State := s.setTransfers (s.transfers ++ [t])

/-- A disk-bound transfer is admitted: unless it is held back it joins the issue queue, and the port may issue it at once
(R88, R120). -/
def State.enlist (s : State) (t : Transfer) : State := (s.addTransfer t).settle

/-- The slot accepts writes: a recording slot OPEN with finish pending clear (R22), a ring slot RUNNING (R87). -/
def State.acceptsWrites (s : State) (slot : Nat) : Bool :=
  if slot < 64 then (s.recSlot slot).state = .opened && !(s.recSlot slot).finishPending
  else (s.ring slot).state = .running

/-- The recording slots a fragment list writes, each once (R22). -/
def State.slotsWritten (s : State) (fragments : List Fragment) : List Nat :=
  ((fragments.filterMap s.fragmentSlot).filter (· < 64)).eraseDups

/-- A slot's writes-in-flight count rises by 1 (R22). -/
def State.raiseWrites (s : State) (n : Nat) : State :=
  s.setRec n { s.recSlot n with inFlight := (s.recSlot n).inFlight + 1 }

/-- The refusal of a command that would be PROTECTED, by tests 4 to 7 of R87, with the block it names. -/
def State.protectedRefusal (s : State) (kind : TransferKind) (first count : Nat) (fragments : List Fragment) :
    Option (Reason × Nat) :=
  match s.spanBlock first count with
  | some b => some (.span, b)
  | none =>
    match fragments[16]? with
    | some f => some (.split, f.first)
    | none =>
      if kind = .write then
        match fragments.find? fun f => f.entry.isNone with
        | some f => some (.unassigned, f.first)
        | none =>
          (fragments.find? fun f => !(s.fragmentSlot f).any s.acceptsWrites).map fun f => (.writeLocked, f.first)
      else none

/-- A READ that names the slot of an ENDING session is held back (R157). -/
def State.holdForEnding (s : State) (t : Transfer) : State :=
  match s.session.slot with
  | some n =>
    if s.session.state = .ending && s.readsSlot t n then
      s.modSession fun x => { x with heldBack := x.heldBack ++ [t.tag] }
    else s
  | none => s

/-- A PROTECTED transfer is admitted: references on its entries, writes in flight of its slots (R88). -/
def State.admitProtected (s : State) (kind : TransferKind) (tag first count : Nat) (fragments : List Fragment) : State :=
  let writeSlots := if kind = .write then s.slotsWritten fragments else []
  let t : Transfer :=
    { tag, kind, handling := .guarded, first := some first, count := some count, fragments, state := .queued, writeSlots }
  let s := writeSlots.foldl State.raiseWrites ((entriesOf fragments).foldl State.takeReference s)
  (s.holdForEnding t).enlist t

/-- The arrival of a READ or WRITE (R86, R87, R88). -/
def State.arriveBlocks (s : State) (kind : TransferKind) (tag first countField : Nat) : State :=
  let count := blockCount countField
  if (s.transfer tag).isSome then s.refuse tag .tagBusy first
  else if s.disk.healthState = .cutoff then s.refuse tag .cutoff first
  else if s.mgmt.mode = .run && s.touchesPartition first count then
    let fragments := s.fragmentsOf first count
    match s.protectedRefusal kind first count fragments with
    | some (reason, b) => s.refuse tag reason b
    | none => s.admitProtected kind tag first count fragments
  else
    s.enlist
      { tag, kind, handling := .passThrough, first := some first, count := some count, state := .queued
        drainHeld := s.mgmt.mode = .draining && s.touchesPartition first count }

/-- The wait set of a FLUSH admitted now: every WRITE in the table (R101). -/
def State.writesInTable (s : State) : List Nat := (s.transfers.filter fun t => t.kind = .write).map Transfer.tag

/-- The arrival of a FLUSH (R86, R87, R101). -/
def State.arriveFlush (s : State) (tag : Nat) : State :=
  if (s.transfer tag).isSome then s.refuse tag .tagBusy 0
  else if s.disk.healthState = .cutoff then s.refuse tag .cutoff 0
  else s.enlist { tag, kind := .flush, handling := .passThrough, state := .queued, waitSet := s.writesInTable }

/-- The arrival of a command that is none of the kinds the part knows (R86, R87, R99). -/
def State.arriveOther (s : State) (tag code : Nat) (direction : DataDirection) (blocks : Option (Nat × Nat)) : State :=
  let first := blocks.map (·.1)
  if (s.transfer tag).isSome then s.refuse tag .tagBusy (first.getD 0)
  else if s.disk.healthState = .cutoff then s.refuse tag .cutoff (first.getD 0)
  else
    s.enlist
      { tag, kind := .other code direction, handling := .passThrough, first, count := blocks.map fun b => blockCount b.2
        state := .queued }

/-- The MREQ transfer in the table, if there is one (R162). -/
def State.mreqTransfer (s : State) : Option Transfer := s.transfers.find? fun t => t.kind = .mreq

/-- The arrival of an MREQ (R162, R163). -/
def State.arriveMreq (s : State) (tag countField : Nat) : State :=
  if (s.transfer tag).isSome then s.refuse tag .tagBusy 0
  else if s.mgmt.mode = .starting then s.refuse tag .notReady 0
  else if countField ≠ 1 then s.refuse tag .mgmtForm 0
  else if s.mgmt.request.isSome || s.mreqTransfer.isSome then s.refuse tag .mgmtBusy 0
  else s.addTransfer { tag, kind := .mreq, handling := .management, state := .active }

/-- The arrival of an MRSP, which copies the response block as it stands (R162, R164). -/
def State.arriveMrsp (s : State) (tag countField : Nat) : State :=
  if (s.transfer tag).isSome then s.refuse tag .tagBusy 0
  else if s.mgmt.mode = .starting then s.refuse tag .notReady 0
  else if countField ≠ 1 then s.refuse tag .mgmtForm 0
  else
    s.addTransfer
      { tag, kind := .mrsp, handling := .management, state := .active
        output := [⟨responseBlock s.mgmt.response, .relayed⟩] }

/-- The command codes of the two vendor commands (R177). -/
abbrev mreqCode : Nat := 0x8B

@[inherit_doc mreqCode] abbrev mrspCode : Nat := 0x8C

/-- The arrival of a command by its code (R86, R177): 8Bh is an MREQ and 8Ch an MRSP, whose block address is ignored; any other code is
an OTHER command. A vendor command without a count field is taken as one with count field 0 (log 32). -/
def State.arriveCode (s : State) (tag code : Nat) (direction : DataDirection) (blocks : Option (Nat × Nat)) : State :=
  let countField := (blocks.map (·.2)).getD 0
  if code = mreqCode then s.arriveMreq tag countField
  else if code = mrspCode then s.arriveMrsp tag countField
  else s.arriveOther tag code direction blocks

end Sys2Proof.Machine
end

