-- ==== Sys2Proof/Machine/Requests.lean ====
section
/-! DEFINITION. What each management request does at its execution (chapters 1 to 4, 8 to 11). Every function runs with the request
in progress and its response PENDING; it either makes the response final or leaves the request waiting. -/

namespace Sys2Proof.Machine

/-! ### Management unit (sections 11.3 to 11.6) -/

/-- IDENT (R171). -/
def State.reqIdent (s : State) : State := s.answer .ok s.identBytes

/-- A request final with a result and the mode as held (R168; log 15). -/
def State.answerMode (s : State) (result : Result) : State := s.answer result (le 1 s.mgmt.mode.code)

/-- The part enters DRAINING: the session becomes ENDING (R158), QUEUED PROTECTED transfers leave the issue queue and are held
back (R100, R169). -/
def State.beginDraining (s : State) : State :=
  let s := (s.setMode .draining).beginEnding
  let back := (s.transfers.filter Transfer.turns).map Transfer.tag
  let s := s.setIssueQueue (s.issueQueue.filter fun tag => !back.contains tag)
  s.setTransfers (s.transfers.map fun t => if t.turns then { t with drainHeld := true } else t)

/-- MODE (R168). -/
def State.reqMode (s : State) (target : Nat) : State :=
  if target ≠ Mode.run.code ∧ target ≠ Mode.config.code then s.answer .range
  else
    match s.mgmt.mode with
    | .config =>
        if target = Mode.config.code then s.answerMode .ok
        else if s.mgmt.setup.length = 0 then s.answerMode .notSet
        else (s.setMode .run).settle.answerMode .ok
    | .run => if target = Mode.run.code then s.answerMode .ok else s.beginDraining.settle.answerMode .ok
    | .draining | .starting => s.answerMode .busy

/-- The partition tests of R1. -/
def partitionOk (first length : Nat) : Bool :=
  first % 256 = 0 && length ≤ maxPartition && first + 256 * length ≤ 2 ^ 48

/-- Clamp a value to a range (R170). -/
def clamp (lo hi x : Nat) : Nat := max lo (min hi x)

/-- The setup values a SETUP stores (R170). -/
def clampedSetup (first length depth bgLimit bgShare timeout warnLevel : Nat) : Setup :=
  { first, length, depth := clamp 1 16 depth, bgLimit := clamp 0 1 bgLimit, bgShare := clamp 0 15 bgShare
    timeout := clamp 0 255 timeout, warnLevel := clamp 1 8 warnLevel }

/-- The blocks take up new setup values: a change of partition empties the extent map (R18), a share count above the new N
returns to 0 (R113). -/
def State.applySetup (s : State) (u : Setup) : State :=
  let changed := u.first ≠ s.mgmt.setup.first || u.length ≠ s.mgmt.setup.length
  let s := s.modMgmt fun m => { m with setup := u }
  let s := if changed then { s with extents := [] } else s
  s.modEngine fun e => if u.bgShare < e.share then { e with share := 0 } else e

/-- SETUP (R170). -/
def State.reqSetup (s : State) (first length depth bgLimit bgShare timeout warnLevel : Nat) : State :=
  if s.mgmt.mode ≠ .config then s.answer .wrongMode
  else if !partitionOk first length then s.answer .range
  else
    let u := clampedSetup first length depth bgLimit bgShare timeout warnLevel
    (s.applySetup u).settle.answer .ok u.bytes

/-- SETUP-READ (R170). -/
def State.reqSetupRead (s : State) : State := s.answer .ok s.mgmt.setup.bytes

/-- RESTART on the transfers: every transfer but the carrying MREQ completes ABORTED (R105). -/
def State.restartTransfers (s : State) : State :=
  ((s.transfers.filter fun t => t.kind ≠ .mreq).map Transfer.tag).foldl (fun s tag => s.imposeEnd .aborted tag) s

/-- RESTART on the job unit: every job leaves without a notice, its burst and reference with it (R148). -/
def State.restartJobs (s : State) : State := { (s.discardBurst .job).releaseJobReference with jobs := {} }

/-- RESTART on the export unit: the session becomes NONE, a MOVING slot FINISHED; no last session is kept (R161). -/
def State.restartSession (s : State) : State :=
  let s : State := match s.session.slot with
    | some n =>
        let r := s.recSlot n
        if r.state = .moving then s.setRec n { r with state := .finished, changed := true } else s
    | none => s
  (s.destroyKey .transit).modSession fun _ => { cursor := some 0 }

/-- The owner of a key that RESTART keeps through the draining: a recording slot (R84). -/
def KeyOwner.isRecording : KeyOwner → Bool
  | .slot n => n < 64
  | _ => false

/-- RESTART on the maps and rings: the extent map emptied (R19), rings, tags, sweeps and their keys cleared (R65, R84), the
engine at its first values (R118). -/
def State.restartTables (s : State) : State :=
  { s with
    extents := [], rings := [], tags := [], sweepQueue := [], sweep := none
    keys := s.keys.filter fun e => e.owner.isRecording
    engine := {}, issueQueue := [] }

/-- RESTART on the management unit: setup values at their defaults, STARTING, the notice list emptied, the store draining
(R172, R41). -/
def State.restartMgmt (s : State) : State :=
  s.modMgmt fun m => { m with setup := {}, mode := .starting, loading := .draining, notices := [], overflowed := false }

/-- RESTART (R172); its response stays PENDING until the reload completes. -/
def State.reqRestart (s : State) : State :=
  let s := s.restartTransfers.restartJobs.restartSession
  let s := (s.setHealth 0 .normal).beginReset
  (s.restartTables.restartMgmt.waitFor .restart).settle

/-- NOTICE-TAKE (R174). -/
def State.reqNoticeTake (s : State) : State :=
  let m := s.mgmt
  (s.modMgmt fun m => { m with notices := [], overflowed := false }).answer .ok (m.notices.flatMap Notice.bytes)
    m.notices.length 0 m.overflowed

/-! ### Clock (section 4.5) -/

/-- CLOCK-READ (R72). -/
def State.reqClockRead (s : State) : State := s.answer .ok s.clock.bytes

/-- CLOCK-ADVANCE (R73). -/
def State.reqClockAdvance (s : State) (target : Nat) : State :=
  if target < s.clock.minutes then s.answer .backward
  else if target = s.clock.minutes then s.answer .ok (le 4 s.clock.minutes)
  else (((s.modClock fun c => { c with target := some target }).waitFor .clockAdvance).demand .time).beginWrite

/-! ### Slots (chapters 2 and 3) -/

/-- A slot number carried as "any" (R176). -/
abbrev anySlot : Nat := 255

/-- The slot an open names or chooses among `numbers`: the one named, or the lowest-numbered EMPTY one (R24, R45). -/
def chooseSlot (numbers : List Nat) (isEmpty : Nat → Bool) (slot : Nat) : Except Result Nat :=
  if slot = anySlot then
    match numbers.find? isEmpty with
    | some n => .ok n
    | none => .error .noRoom
  else if isEmpty slot then .ok slot
  else .error .slotState

/-- An accepted SLOT-OPEN sets the chosen slot's record, derives its key and queues the record (R25). -/
def State.openRec (s : State) (n : Nat) (cls : SlotClass) (expiry : Option Nat) : State :=
  let d := s.draw
  let r : RecSlot :=
    { state := .opened, cls, nonce := d.1, expiry, created := s.clock.minutes, persisting := (s.recSlot n).persisting }
  ((((d.2.setRec n r).deriveSlot n d.1).waitFor (.slotOpen n)).demand (.slot n)).beginWrite

/-- SLOT-OPEN (R24, R25). -/
def State.reqSlotOpen (s : State) (slot cls : Nat) (expiry : Option Nat) : State :=
  if 64 ≤ slot ∧ slot ≠ anySlot then s.answer .range
  else
    match SlotClass.ofCode cls with
    | some .never => s.answer .cls
    | none => s.answer .range
    | some c =>
      if expiry.any (· ≤ s.clock.minutes) then s.answer .range
      else
        match chooseSlot (List.range 64) (fun n => (s.recSlot n).state = .empty) slot with
        | .error e => s.answer e
        | .ok n => s.openRec n c expiry

/-- An accepted SLOT-FINISH: at once with no writes in flight, else pending (R26, R27). -/
def State.finishRec (s : State) (n : Nat) : State :=
  let s := s.waitFor (.finishPending n)
  let r := s.recSlot n
  if r.inFlight = 0 then (s.finishSlot n).beginWrite
  else s.setRec n { r with finishPending := true, changed := true }

/-- SLOT-FINISH (R26). -/
def State.reqSlotFinish (s : State) (slot : Nat) : State :=
  if 67 < slot then s.answer .range
  else if 64 ≤ slot ∨ (s.recSlot slot).state ≠ .opened then s.answer .slotState
  else if s.jobs.queue.any fun j => j.target = slot then s.answer .busy
  else s.finishRec slot

/-- SLOT-DROP of a recording slot (R30). -/
def State.dropRec (s : State) (n : Nat) : State :=
  match (s.recSlot n).state with
  | .empty | .running => s.answer .slotState
  | .erasing => s.waitFor (.drop n)
  | .opened | .finished | .moving => ((s.waitFor (.drop n)).eraseSlot n).settle

/-- SLOT-DROP of a ring slot (R62). -/
def State.dropRing (s : State) (n : Nat) : State :=
  match (s.ring n).state with
  | .running => ((s.waitFor (.drop n)).eraseRing n).settle
  | .erasing => s.waitFor (.drop n)
  | _ => s.answer .slotState

/-- SLOT-DROP (R30). -/
def State.reqSlotDrop (s : State) (slot : Nat) : State :=
  if 67 < slot then s.answer .range else if slot < 64 then s.dropRec slot else s.dropRing slot

/-- SLOT-VIEW: the view, and the changed flag cleared (R34, R64). -/
def State.reqSlotView (s : State) (slot : Nat) : State :=
  if 67 < slot then s.answer .range
  else if slot < 64 then
    let r := s.recSlot slot
    (s.setRec slot { r with changed := false }).answer .ok (r.view slot)
  else
    let view := s.ringView slot
    (s.setRing slot { s.ring slot with changed := false }).answer .ok view

/-- SLOT-SCAN (R35). -/
def State.reqSlotScan (s : State) (start count : Nat) : State :=
  if 67 < start ∨ count = 0 ∨ 68 < count then s.answer .range
  else
    s.answer .ok ((List.range count).flatMap fun i => s.slotSummary ((start + i) % 68)) count ((start + count) % 68)

/-- An accepted RING-OPEN sets the chosen slot's record and derives the ring slot key (R46). -/
def State.openRing (s : State) (n : Nat) (cls : SlotClass) (window size start : Nat) : State :=
  let d := s.draw
  let w := min 1440 window
  let r : RingSlot :=
    { state := .running, cls, nonce := d.1, window := w, epochLength := (w + 7) / 8, size, tagStart := start }
  ((d.2.setRing n r).deriveSlot n d.1).answer .ok
    (le 1 n ++ le 2 r.window ++ le 1 r.epochLength ++ le 3 size ++ le 3 start)

/-- RING-OPEN (R45, R46). -/
def State.reqRingOpen (s : State) (slot cls window size : Nat) : State :=
  if ¬(64 ≤ slot ∧ slot ≤ 67) ∧ slot ≠ anySlot then s.answer .range
  else
    match SlotClass.ofCode cls with
    | none => s.answer .range
    | some c =>
      if window = 0 ∨ size = 0 ∨ maxRing < size then s.answer .range
      else
        match chooseSlot ringNumbers (fun n => (s.ring n).state = .empty) slot with
        | .error e => s.answer e
        | .ok n =>
          match s.firstFit size with
          | none => s.answer .noRoom
          | some start => s.openRing n c window size start

/-! ### Extent map (sections 1.8 to 1.10) -/

/-- Two aligned runs overlap (R12). -/
def runsOverlap (b₁ k₁ b₂ k₂ : Nat) : Bool := b₁ / 2 ^ max k₁ k₂ = b₂ / 2 ^ max k₁ k₂

/-- The slot may be named by an extent entry: OPEN, FINISHED or MOVING, or RUNNING (R14, test 7). -/
def State.nameable (s : State) (slot : Nat) : Bool :=
  if slot < 64 then
    (s.recSlot slot).state = .opened || (s.recSlot slot).state = .finished || (s.recSlot slot).state = .moving
  else (s.ring slot).state = .running

/-- The result of the first test of R14 that a description fails. -/
def State.loadRefusal (s : State) (d : ExtentDesc) : Option Result :=
  if extentCount ≤ d.index then some .range
  else if (s.extent d.index).state ≠ .empty then some .busy
  else if 14 < d.exponent then some .range
  else if d.base % 2 ^ d.exponent ≠ 0 then some .range
  else if s.mgmt.setup.length < d.base + 2 ^ d.exponent then some .range
  else if 67 < d.slot then some .range
  else if !s.nameable d.slot then some .noSlot
  else if s.ordinalLimit d.slot < d.firstOrdinal + 2 ^ d.exponent then some .range
  else if s.extents.any fun x => x.2.state ≠ .empty && runsOverlap d.base d.exponent x.2.base x.2.exponent then
    some .overlap
  else none

/-- One description of an EXTENT-LOAD (R14). -/
def State.loadDesc (s : State) (d : ExtentDesc) : State × Result :=
  match s.loadRefusal d with
  | some e => (s, e)
  | none =>
      (s.setExtent d.index
        { state := .valid, base := d.base, exponent := d.exponent, slot := d.slot, firstOrdinal := d.firstOrdinal }, .ok)

/-- The descriptions in list order, with their results (R13). -/
def State.loadAll : List ExtentDesc → State → State × List Result
  | [], s => (s, [])
  | d :: rest, s =>
    let p := s.loadDesc d
    let q := State.loadAll rest p.1
    (q.1, p.2 :: q.2)

/-- EXTENT-LOAD (R13). -/
def State.reqExtentLoad (s : State) (itemCount : Nat) (descs : List ExtentDesc) : State :=
  if 30 < itemCount then s.answer .range
  else if descs.length < itemCount then s.answer .badRequest
  else
    let p := State.loadAll (descs.take itemCount) s
    p.1.answer .ok (resultBytes p.2) (p.2.filter (· = .ok)).length

/-- One index of an EXTENT-CLEAR (R15). -/
def State.clearIndex (s : State) (i : Nat) : State × Result :=
  if extentCount ≤ i then (s, .range)
  else
    match (s.extent i).state with
    | .empty => (s, .notFound)
    | .valid =>
        if (s.extent i).inUse = 0 then (s.setExtent i {}, .ok)
        else (s.setExtent i { s.extent i with state := .retiring }, .busy)
    | .retiring => (s, .busy)

/-- The indices in list order, with their results (R15). -/
def State.clearAll : List Nat → State → State × List Result
  | [], s => (s, [])
  | i :: rest, s =>
    let p := s.clearIndex i
    let q := State.clearAll rest p.1
    (q.1, p.2 :: q.2)

/-- EXTENT-CLEAR (R15). -/
def State.reqExtentClear (s : State) (itemCount : Nat) (indices : List Nat) : State :=
  if itemCount = 0 ∨ 200 < itemCount then s.answer .range
  else if indices.length < itemCount then s.answer .badRequest
  else
    let p := State.clearAll (indices.take itemCount) s
    p.1.answer .ok (resultBytes p.2) p.2.length

/-- EXTENT-SCAN (R17). -/
def State.reqExtentScan (s : State) (start count : Nat) : State :=
  if extentCount ≤ start ∨ count = 0 ∨ 30 < count then s.answer .range
  else
    s.answer .ok
      ((List.range count).flatMap fun i => (s.extent ((start + i) % extentCount)).bytes ((start + i) % extentCount))
      count ((start + count) % extentCount)

/-! ### Jobs (sections 9.2, 9.6, 9.7) -/

/-- The number after `n`, 255 wrapping to 1 (R133). -/
def nextJobNumber (n : Nat) : Nat := if 255 ≤ n then 1 else n + 1

/-- The number of a new job: the one after the last assigned, numbers held in the queue passed over; at most 8 are held, so
8 tries suffice (R133). -/
def State.newJobNumber (s : State) : Nat → Nat → Nat
  | 0, n => n
  | k + 1, n => if s.jobs.queue.any fun j => j.number = n then s.newJobNumber k (nextJobNumber n) else n

/-- The result of the first test of R135 that a JOB-ADOPT fails. -/
def State.adoptRefusal (s : State) (source firstSource count target firstTarget : Nat) : Option Result :=
  let r := s.ring source
  let x := s.recSlot target
  if ¬(64 ≤ source ∧ source ≤ 67 ∧ target ≤ 63) then some .range
  else if r.state ≠ .running ∨ x.state ≠ .opened then some .slotState
  else if r.cls = .never ∨ (r.cls = .once ∧ x.cls = .free) then some .cls
  else if count = 0 ∨ 65536 < count ∨ r.size < count ∨ r.size ≤ firstSource ∨ maxOrdinal < firstTarget + count then
    some .range
  else if 8 ≤ s.jobs.queue.length then some .queueFull
  else none

/-- A job joins the tail of the queue; QUEUE-WARN is raised as the number of jobs comes up to the warning level (R134, R136). -/
def State.addJob (s : State) (j : Job) : State :=
  let s := s.modJobs fun u => { u with queue := u.queue ++ [j], lastNumber := j.number }
  if s.jobs.queue.length = s.mgmt.setup.warnLevel then s.raise .queueWarn else s

/-- JOB-ADOPT (R135, R136, R137). -/
def State.reqJobAdopt (s : State) (source firstSource count target firstTarget : Nat) : State :=
  match s.adoptRefusal source firstSource count target firstTarget with
  | some e => s.answer e
  | none =>
    let number := s.newJobNumber 8 (nextJobNumber s.jobs.lastNumber)
    (s.addJob { number, source, firstSource, count, target, firstTarget }).settle.answer .ok (le 1 number)

/-- JOB-CANCEL (R146). -/
def State.reqJobCancel (s : State) (number : Nat) : State :=
  match s.jobs.queue.find? fun j => j.number = number with
  | none => s.answer .notFound
  | some j => (s.endJob .aborted j).settle.answer .ok

/-- JOB-SCAN (R147). -/
def State.reqJobScan (s : State) : State :=
  s.answer .ok (s.jobs.queue.flatMap Job.view) s.jobs.queue.length

/-! ### Export (chapter 10) -/

/-- The result of the first of tests 1 to 5 of R150 that fails. -/
def State.exportRefusal (s : State) (mode slot : Nat) : Option Result :=
  if s.mgmt.mode ≠ .run then some .wrongMode
  else if (ExportMode.ofCode mode).isNone ∨ 67 < slot then some .range
  else if s.session.state ≠ .idle then some .busy
  else if 64 ≤ slot ∨ (s.recSlot slot).state ≠ .finished then some .slotState
  else if mode = ExportMode.copy.code ∧ (s.recSlot slot).cls ≠ .free then some .cls
  else none

/-- An accepted EXPORT-OPEN opens the session; a MOVE with nothing left to move completes (R151). -/
def State.openSession (s : State) (mode : ExportMode) (n : Nat) (key : Key) : State :=
  let s := s.addKey .transit key
  let r := s.recSlot n
  match mode with
  | .copy => s.modSession fun _ => { state := .active, mode := some .copy, slot := some n, keyPresent := true }
  | .move =>
      let s := s.setRec n { r with state := .moving, changed := true }
      let s := s.modSession fun _ =>
        { state := .active, mode := some .move, slot := some n, cursor := some r.floor, keyPresent := true }
      if r.length ≤ r.floor then (s.completeMove n).settle else s

/-- EXPORT-OPEN (R150, R151). -/
def State.reqExportOpen (s : State) (mode slot : Nat) (record : KeyRecord) : State :=
  match s.exportRefusal mode slot, ExportMode.ofCode mode with
  | some e, _ => s.answer e
  | none, none => s.answer .range
  | none, some m =>
    match unwrapRecord record with
    | none => s.answer .badWrap
    | some key =>
      let s := s.openSession m slot key
      s.answer .ok (s.exportBytes m slot)

/-- EXPORT-END (R157). -/
def State.reqExportEnd (s : State) : State :=
  match s.session.state with
  | .idle => s.answer .notFound
  | .active => ((s.waitFor .exportEnd).beginEnding).settle
  | .ending => s.waitFor .exportEnd

/-- EXPORT-VIEW (R160). -/
def State.reqExportView (s : State) : State := s.answer .ok s.sessionBytes

/-! ### Disk port (section 8.8) -/

/-- The error summary is cleared (R130). -/
def State.clearSummary (s : State) : State :=
  s.modDisk fun d => { d with timeoutSeen := false, failureSeen := false, resetSeen := false }

/-- LINK-VIEW (R130). -/
def State.reqLinkView (s : State) : State := s.clearSummary.answer .ok s.linkBytes

/-- LINK-RESTORE (R131). -/
def State.reqLinkRestore (s : State) : State := ((s.waitFor .linkRestore).beginReset).settle

/-! ### Taking a request (R163, R166) -/

/-- The request of a kind is taken on the MREQ transfer in the table: it becomes the request in progress with a PENDING response, it
is executed, and the MREQ completes GOOD (R163). With no MREQ in the table no request block can arrive (log 8, log 13). -/
def State.takeRequest (s : State) (kind number : Nat) (run : State → State) : State :=
  match s.mreqTransfer with
  | none => s
  | some t =>
    let s := s.modMgmt fun m =>
      { m with
        request := some { kind, number, wait := .execution }
        response := some { kind, number, result := .pending } }
    (run s).finishTransfer t none

/-- The execution of a request, by its constructor; other commands are no request. -/
def State.runRequest (s : State) : Instr → State
  | .ident _ => s.reqIdent
  | .mode _ target => s.reqMode target
  | .setup _ first length depth bgLimit bgShare timeout warnLevel =>
      s.reqSetup first length depth bgLimit bgShare timeout warnLevel
  | .setupRead _ => s.reqSetupRead
  | .restart _ => s.reqRestart
  | .noticeTake _ => s.reqNoticeTake
  | .clockRead _ => s.reqClockRead
  | .clockAdvance _ target => s.reqClockAdvance target
  | .slotOpen _ slot cls expiry => s.reqSlotOpen slot cls expiry
  | .slotFinish _ slot => s.reqSlotFinish slot
  | .slotDrop _ slot => s.reqSlotDrop slot
  | .slotView _ slot => s.reqSlotView slot
  | .slotScan _ start count => s.reqSlotScan start count
  | .ringOpen _ slot cls window size => s.reqRingOpen slot cls window size
  | .extentLoad _ itemCount descs => s.reqExtentLoad itemCount descs
  | .extentClear _ itemCount indices => s.reqExtentClear itemCount indices
  | .extentScan _ start count => s.reqExtentScan start count
  | .jobAdopt _ source firstSource count target firstTarget =>
      s.reqJobAdopt source firstSource count target firstTarget
  | .jobCancel _ job => s.reqJobCancel job
  | .jobScan _ => s.reqJobScan
  | .exportOpen _ mode slot record => s.reqExportOpen mode slot record
  | .exportEnd _ => s.reqExportEnd
  | .exportView _ => s.reqExportView
  | .linkView _ => s.reqLinkView
  | .linkRestore _ => s.reqLinkRestore
  | .powerOn _ | .powerLoss | .slotLoad | .controllerLinkReset _ | .tick | .minuteEvent | .sweepPass | .sweepEnd
  | .commandTimeout _ | .diskLinkResetEnd _ | .diskLinkResetFail | .linkLoss | .commandSuccess _ | .commandFailure _ _
  | .dataFromController _ _ | .dataFromDisk _ _ | .cipheringEnd | .blockDelivery _ | .blockToDisk _ | .storeWriteEnd
  | .read _ _ _ | .write _ _ _ | .flush _ | .other _ _ _ _ | .mreq _ _ | .mrsp _ _ => s

/-- A request block is received (R163, R166): a malformed one is refused BAD-REQUEST, any other is executed by its kind. -/
def State.takeBlock (s : State) (b : Block) : State :=
  let kind := field b 0 2
  s.takeRequest kind (field b 2 2) fun s =>
    match requestOf b with
    | some i => if requestFormOk kind (field b 4 2) (field b 6 2) then s.runRequest i else s.answer .badRequest
    | none => s.answer .badRequest

end Sys2Proof.Machine
end

