-- ==== Sys2Proof/Machine/Power.lean ====
section
/-! DEFINITION. The meanings of POWER_ON, POWER_LOSS and SLOT_LOAD: power, the loading of the slot store (sections 2.9, 4.3), the
end of loading (R167). -/

namespace Sys2Proof.Machine

/-- The outcome of a command whose effect is `f`: the part without power does nothing (log 27). -/
def State.whenPowered (s : State) (f : State → State) : Host.Outcome State Fault Refusal :=
  .next (if s.powered then f s else s)

/-! ### Power -/

/-- The state with every volatile value as power-on leaves it; the slot store, and the model's own fields, are kept (R39, R40,
R65, R84, R85, R118, R132, R148, R161, R175). The record of a recording slot whose load event has not come reads EMPTY with changed set
(log 36), and the session's cursor is absent (log 40); both are the model's choice. -/
def State.cold (s : State) : State :=
  { pending := s.pending, sent := s.sent, draws := s.draws, controllerSpeed := s.controllerSpeed, store := s.store }

/-- POWER_ON (R178): the part without power starts in STARTING, the controller port's link at a speed. -/
def State.powerUp (s : State) (speed : LinkSpeed) : State :=
  if s.powered then s else { s.cold with controllerSpeed := speed }

/-- POWER_LOSS (R39). -/
def State.powerDown (s : State) : State := { s.cold with powered := false, store := s.store.afterPowerLoss }

/-- POWER_ON. -/
def execPowerOn (speed : LinkSpeed) (s : State) : Host.Outcome State Fault Refusal := .next (s.powerUp speed)

/-- POWER_LOSS. -/
def execPowerLoss (s : State) : Host.Outcome State Fault Refusal := s.whenPowered State.powerDown

/-! ### Loading -/

/-- The loading of the slot store stands at `l`. -/
def State.setLoading (s : State) (l : Loading) : State := s.modMgmt fun m => { m with loading := l }

/-- The clock sets the minute count at power-on, and demands a save (R68, R69, R70). -/
def State.setClock (s : State) (minutes : Nat) (persisted : Option Nat) (source : RestoreSource) : State :=
  (s.modClock fun _ => { minutes, ticks := 0, persisted, source, running := true }).demand .time

/-- The first load event: the clock reads the time record (R69); a damaged one waits for slot 63 (R70). -/
def State.loadTime (s : State) : State :=
  let s := s.setLoading (.slot 0)
  if s.store.time.damaged then s
  else s.setClock (min maxCount (s.store.time.minutes + 15)) (some s.store.time.minutes) .intact

/-- The record of a slot loaded OPEN or FINISHED (R40). -/
def StoredRec.loaded (r : StoredRec) (state : SlotState) : RecSlot :=
  { state, cls := r.cls, nonce := r.nonce, high := r.high, length := r.length, expiry := r.expiry, floor := r.floor
    persistedFloor := r.floor, created := r.created }

/-- The load event of a recording slot (R40): its record, and its key; a damaged record comes back EMPTY. Any key held from before
a RESTART goes first (R84; log 23). -/
def State.loadSlot (s : State) (n : Nat) : State :=
  let s := s.destroyKey (.slot n)
  let r := s.storedRec n
  if r.damaged then ((s.setRec n {}).demand (.slot n)).raise .recordDamaged (some n)
  else
    match r.state with
    | .empty => s.setRec n {}
    | .opened => (s.setRec n (r.loaded .opened)).deriveSlot n r.nonce
    | .finished => (s.setRec n (r.loaded .finished)).deriveSlot n r.nonce

/-- The largest expiry minute of the slots OPEN or FINISHED, or 0 (R70). -/
def State.latestExpiry (s : State) : Nat :=
  (List.range 64).foldl (fun m n =>
    let r := s.recSlot n
    if r.state = .opened || r.state = .finished then max m (r.expiry.getD 0) else m) 0

/-- The minute count is set at the load event of slot 63 when the time record was damaged (R70). -/
def State.settleClock (s : State) : State :=
  if s.clock.running then s else (s.setClock s.latestExpiry none .damaged).raise .clockLost

/-- Loading is complete: the mode leaves STARTING for CONFIG (R167); a RESTART is answered OK (R172) and the error summary is clear
(R132). -/
def State.finishLoading (s : State) : State :=
  let s := (s.settleClock.setLoading .finished).setMode .config
  if s.waits .restart then s.clearSummary.answer .ok else s

/-- SLOT_LOAD (R40, R69): the next load event. At that of slot 63, with its record and the time record damaged, RECORD-DAMAGED is raised before
CLOCK-LOST and record 63 joins the store write queue before the time record, which is the model's choice (log 11). -/
def State.loadEvent (s : State) : State :=
  match s.mgmt.loading with
  | .timeRecord => s.loadTime.settle
  | .slot n => (if 63 ≤ n then (s.loadSlot n).finishLoading else (s.loadSlot n).setLoading (.slot (n + 1))).settle
  | .finished | .draining => s

/-- SLOT_LOAD. -/
def execSlotLoad (s : State) : Host.Outcome State Fault Refusal := s.whenPowered State.loadEvent

end Sys2Proof.Machine
end

