-- ==== Sys2Proof/Machine/Clock.lean ====
section
/-! DEFINITION. The meanings of TICK, MINUTE_EVENT, SWEEP_PASS and SWEEP_END (chapters 3 and 4). -/

namespace Sys2Proof.Machine

/-- The minute count after a minute event (R67). -/
def State.raiseMinute (s : State) : State :=
  s.modClock fun c => { c with minutes := min maxCount (c.minutes + 1), ticks := 0 }

/-- What a rise of the minute count brings (R67, R74): the ring unit runs an expiry pass (R51), the job unit acts on the expiries it was
handed, where a lost chunk begins the next one or completes the job (R142, R138, R141), and the slot table runs an expiry check (R71). That
the job unit has acted before the check is the model's choice (log 11). -/
def State.runExpiries (s : State) : State := s.expiryPass.jobRun.expiryCheck

/-- A minute event at a running clock (R66): the count rises, a rise to a multiple of 15 demands a save (R68), and the expiries are run. The
spec has a save and an erasure demanded at one event written in either order (section 4.6); that the save is queued first is the model's
choice (log 11). -/
def State.minute (s : State) : State :=
  let t := s.raiseMinute
  let t := if s.clock.minutes < maxCount ∧ t.clock.minutes % 15 = 0 then t.demand .time else t
  t.runExpiries

/-- MINUTE_EVENT as a command of its own (R67; log 10). -/
def State.minuteCommand (s : State) : State := if s.clock.running then s.minute.settle else s

/-- TICK (R66): the disk port's tick, and the tick-in-minute count; the 600th brings the minute event. -/
def State.tickEvent (s : State) : State :=
  if s.clock.running then
    let s := s.tickPort
    (if 599 ≤ s.clock.ticks then s.minute else s.modClock fun c => { c with ticks := c.ticks + 1 }).settle
  else s

/-- TICK. -/
def execTick (s : State) : Host.Outcome State Fault Refusal := s.whenPowered State.tickEvent

/-- MINUTE_EVENT. -/
def execMinuteEvent (s : State) : Host.Outcome State Fault Refusal := s.whenPowered State.minuteCommand

/-- SWEEP_PASS. -/
def execSweepPass (s : State) : Host.Outcome State Fault Refusal := s.whenPowered State.passTag

/-- The transfers of a ring that await a serial leave the held list and are released (R56). -/
def State.releaseSweep (s : State) (w : RunningSweep) : State :=
  s.releaseHeld (fun s tag => s.leaveRing tag w.slot) ((s.ring w.slot).awaiting w.serial)

/-- SWEEP_END (R59). -/
def State.endSweep (s : State) : State :=
  match s.sweep with
  | none => s
  | some w => (((s.closeSweep w).releaseSweep w).askAgain w.slot).settle

/-- SWEEP_END. -/
def execSweepEnd (s : State) : Host.Outcome State Fault Refusal := s.whenPowered State.endSweep

end Sys2Proof.Machine
end

