-- ==== Sys2Proof/Machine/DiskEvents.lean ====
section
/-! DEFINITION. The meanings of the events of the disk port (chapter 8) and of the store write end (R38). -/

namespace Sys2Proof.Machine

/-- COMMAND_TIMEOUT as a command of its own (R124; log 10): those of the owners whose outstanding commands have a timeout count time
out at one event. -/
def State.timeoutEvent (s : State) (owners : List Owner) : State :=
  (s.timeOut (owners.filter fun o => (s.outstandingOf o).any fun c => c.timeout.isSome)).settle

/-- COMMAND_TIMEOUT. -/
def execCommandTimeout (owners : List Owner) (s : State) : Host.Outcome State Fault Refusal :=
  s.whenPowered fun s => s.timeoutEvent owners

/-- DISK_LINK_RESET_END (R125). -/
def State.resetEndEvent (s : State) (speed : LinkSpeed) : State :=
  if s.disk.link = .resetting then (s.endReset speed).settle else s

/-- DISK_LINK_RESET_END. -/
def execDiskLinkResetEnd (speed : LinkSpeed) (s : State) : Host.Outcome State Fault Refusal :=
  s.whenPowered fun s => s.resetEndEvent speed

/-- DISK_LINK_RESET_FAIL (R125; log 10). -/
def State.resetFailEvent (s : State) : State := if s.disk.link = .resetting then s.failReset.settle else s

/-- DISK_LINK_RESET_FAIL. -/
def execDiskLinkResetFail (s : State) : Host.Outcome State Fault Refusal := s.whenPowered State.resetFailEvent

/-- LINK_LOSS (R129): the link drops while UP. -/
def State.linkLossEvent (s : State) : State := if s.disk.link = .up then s.loseLink.settle else s

/-- LINK_LOSS. -/
def execLinkLoss (s : State) : Host.Outcome State Fault Refusal := s.whenPowered State.linkLossEvent

/-- The end of an outstanding command with success is handed to its owner (R91, R139, R141). -/
def State.ownerSucceeded (s : State) : Owner → State
  | .tag tag => s.commandDone tag
  | .job => s.jobSucceeded

/-- The end of an outstanding command with failure is handed to its owner (R92, R143). -/
def State.ownerFailed (s : State) (failing : Option Nat) : Owner → State
  | .tag tag => s.failTransfer tag failing
  | .job => s.jobFailed

/-- COMMAND_SUCCESS (R122). -/
def State.successEvent (s : State) (o : Owner) : State :=
  if s.isOutstanding o then (((s.freeSlot o).scoreSuccess).ownerSucceeded o).settle else s

/-- COMMAND_SUCCESS. -/
def execCommandSuccess (owner : Owner) (s : State) : Host.Outcome State Fault Refusal :=
  s.whenPowered fun s => s.successEvent owner

/-- COMMAND_FAILURE (R122): FAILURE-SEEN, the score, the owner's end, and CUTOFF when the rise would pass 255 (R126, R128). The order of the
notices and completions this brings is the model's choice (log 11). -/
def State.failureEvent (s : State) (o : Owner) (failing : Option Nat) : State :=
  if s.isOutstanding o then
    let s := (s.freeSlot o).modDisk fun d => { d with failureSeen := true }
    let scored := s.scoreBad 1
    let s := scored.1.ownerFailed failing o
    (if scored.2 then s.enterCutoff else s).settle
  else s

/-- COMMAND_FAILURE. -/
def execCommandFailure (owner : Owner) (failing : Option Nat) (s : State) : Host.Outcome State Fault Refusal :=
  s.whenPowered fun s => s.failureEvent owner failing

/-! ### The end of a store write -/

/-- A CLOCK-ADVANCE completes (R74). -/
def State.completeAdvance (s : State) : State :=
  let s := s.modClock fun c => { c with minutes := max c.minutes (c.target.getD 0), target := none }
  let s := s.runExpiries
  s.answer .ok (le 4 s.clock.minutes)

/-- The record of a slot whose store write has ended: the persisted floor takes the floor the write carried (R31, R38; log 22),
persisting clears unless the record is queued (R33), an erasure is written (R29). -/
def State.recWritten (s : State) (n : Nat) (w : StoreWrite) : State :=
  let x := s.recSlot n
  s.setRec n
    { x with
      persistedFloor := w.floor
      persisting := s.store.queue.contains (.slot n)
      erased := x.erased || (w.erasure && x.state = .erasing) }

/-- The answer of the request that waits on a slot's store write (R25, R26). -/
def State.answerWrite (s : State) (n : Nat) : State :=
  match s.mgmt.request with
  | some r =>
    match r.wait with
    | .slotOpen m => if m = n then s.answer .ok (le 1 n) else s
    | .finishWrite m length => if m = n then s.answer .ok (le 3 length) else s
    | _ => s
  | none => s

/-- A transfer leaves the session's held list (R153). -/
def State.leaveFloor (s : State) (tag : Nat) : State :=
  s.modSession fun x => { x with held := x.held.filter fun h => h.1 ≠ tag }

/-- A store write end of the session's slot releases the held transfers whose chunk lies below the persisted floor, in list order
(R153). -/
def State.releaseFloor (s : State) (n : Nat) : State :=
  if s.session.state ≠ .idle ∧ s.session.slot = some n then
    let floor := (s.recSlot n).persistedFloor
    s.releaseHeld State.leaveFloor ((s.session.held.filter fun h => h.2 < floor).map (·.1))
  else s

/-- The effects of the end of a store write on the owners of its record (R38). -/
def State.writeEnded (s : State) (w : StoreWrite) : State :=
  match w.record, w.content with
  | .slot n, .slot _ =>
      let s := s.recWritten n w
      (if w.answers then s.answerWrite n else s).releaseFloor n
  | .time, .time v =>
      let s := s.modClock fun c => { c with persisted := some v }
      if w.answers then s.completeAdvance else s
  | _, _ => s

/-- STORE_WRITE_END (R38). -/
def State.storeEndEvent (s : State) : State :=
  match s.store.writer with
  | none => s
  | some w =>
      (((s.storeContent w.record w.content).modStore fun t => { t with writer := none }).writeEnded w).settle

/-- STORE_WRITE_END. -/
def execStoreWriteEnd (s : State) : Host.Outcome State Fault Refusal := s.whenPowered State.storeEndEvent

end Sys2Proof.Machine
end

