-- ==== Sys2Proof/Machine/DataEvents.lean ====
section
/-! DEFINITION. The meanings of the data events and of the ciphering end (sections 6.3, 7.2, 9.4, 10.5, 11.1). -/

namespace Sys2Proof.Machine

/-- The blocks waiting inside the part for a transfer (R90). -/
def Transfer.waiting (t : Transfer) : Nat := t.input.length + t.output.length

/-- The transfer takes in its next block: it is ACTIVE, or HELD with fewer than 32 blocks waiting, and blocks are still to arrive
(R89, R90). R90 gives the share of 32 blocks for a HELD transfer alone; that an ACTIVE one may have any number waiting is the model's
choice (log 37). -/
def Transfer.accepts (t : Transfer) : Bool :=
  t.arrived < t.count.getD 0 && (t.state = .active || (t.state = .held && t.waiting < 32))

/-- The transfer after a block arrives: a PROTECTED one keeps it for a burst, a PASS-THROUGH one for hand-on (R89, R99). -/
def Transfer.arrive (t : Transfer) (data : Block) : Transfer :=
  if t.handling = .guarded then { t with arrived := t.arrived + 1, input := t.input ++ [data] }
  else { t with arrived := t.arrived + 1, output := t.output ++ [⟨data, .relayed⟩] }

/-- A block of a transfer is handed on: blocks delivered rises by 1 (R89). -/
def State.countDelivered (s : State) (tag : Nat) : State :=
  s.modTransfer tag fun t => { t with delivered := t.delivered + 1 }

/-- DATA_FROM_CONTROLLER (R89, R163): a block of a WRITE, the request block of an MREQ, or a block of an OTHER command that moves data
to the disk (log 19). -/
def State.controllerData (s : State) (tag : Nat) (data : Block) : State :=
  match s.transfer tag with
  | none => s
  | some t =>
    match t.kind with
    | .mreq => s.takeBlock data
    | .write => if t.accepts then (s.modTransfer tag fun t => t.arrive data).settle else s
    | .other _ .toDisk => if t.state = .active then (s.countDelivered tag).emit (.toDisk (.tag tag) data) else s
    | _ => s

/-- DATA_FROM_CONTROLLER. -/
def execDataFromController (tag : Nat) (data : Block) (s : State) : Host.Outcome State Fault Refusal :=
  s.whenPowered fun s => s.controllerData tag data

/-- A block of the READ of a transfer arrives, or of an OTHER command that moves data to the controller (R89; log 19). -/
def State.transferData (s : State) (tag : Nat) (data : Block) : State :=
  match s.transfer tag with
  | none => s
  | some t =>
    match t.kind with
    | .read => if t.accepts then (s.modTransfer tag fun t => t.arrive data).settle else s
    | .other _ .fromDisk => (s.countDelivered tag).emit (.delivered tag data)
    | _ => s

/-- A block of the job's source READ arrives (R107, R139). -/
def State.jobData (s : State) (data : Block) : State :=
  if (s.outstandingOf .job).any (fun c => c.stage = some .read) ∧ s.jobs.kept.length < 256 then
    s.modJobs fun u => { u with kept := u.kept ++ [data] }
  else s

/-- DATA_FROM_DISK (R89). -/
def State.diskData (s : State) (owner : Owner) (data : Block) : State :=
  if s.isOutstanding owner then
    match owner with
    | .tag tag => s.transferData tag data
    | .job => s.jobData data
  else s

/-- DATA_FROM_DISK. -/
def execDataFromDisk (owner : Owner) (data : Block) (s : State) : Host.Outcome State Fault Refusal :=
  s.whenPowered fun s => s.diskData owner data

/-! ### The ciphering end -/

/-- The output of a burst: one block for each of its blocks, zero blocks when it was withdrawn (R81, R111, R117). -/
def Burst.outputs (b : Burst) : List OutBlock :=
  if b.withdrawn then b.inputs.map fun _ => ⟨zeroBlock, .zero⟩
  else (List.zip (composeBlocks b.composition b.tweak b.targetTweak b.inputs) b.origins).map fun p => ⟨p.1, p.2⟩

/-- The output of a background burst goes into the target chunk buffer; the next burst is requested, or the target WRITE after
burst 31 (R107, R111, R141). -/
def State.jobBurstEnd (s : State) (b : Burst) : State :=
  let s := s.clearCancels.modJobs fun u => { u with recoded := u.recoded ++ b.outputs.map OutBlock.data }
  if 31 ≤ b.first then s.requestTargetWrite else s.modJobs fun u => { u with burst := some (b.first + 1) }

/-- CIPHERING_END (R111). -/
def State.cipherEvent (s : State) : State :=
  match s.engine.burst with
  | none => s
  | some b =>
    let s := s.modEngine fun e => { e with burst := none }
    match b.owner with
    | .tag tag => (s.modTransfer tag fun t => { t with output := t.output ++ b.outputs }).settle
    | .job => (s.jobBurstEnd b).settle

/-- CIPHERING_END. -/
def execCipheringEnd (s : State) : Host.Outcome State Fault Refusal := s.whenPowered State.cipherEvent

/-! ### Hand-on -/

/-- The delivery of a transit-enciphered block-in-chunk 255 of chunk `c` (R154): chunks delivered rises; in a MOVE the delivery of the
cursor chunk's raises the cursor and clears advance pending, and completes the move at the slot's length (R156). That advance pending
stays clear when block-in-chunk 255 of the new cursor chunk was decided before the rise is the model's choice (log 38). -/
def State.chunkDelivered (s : State) (n c : Nat) : State :=
  let s := s.modSession fun x => { x with chunksDelivered := min maxCount (x.chunksDelivered + 1) }
  if s.session.state ≠ .idle ∧ s.session.slot = some n ∧ s.session.mode = some .move ∧ s.session.cursor = some c then
    let s := s.modSession fun x => { x with cursor := some (c + 1), advancePending := false }
    if (s.recSlot n).length ≤ c + 1 then s.completeMove n else s
  else s

/-- What the delivery of a block does beyond handing it on (R154). -/
def State.delivered (s : State) : Origin → State
  | .transit n c true => s.chunkDelivered n c
  | _ => s

/-- A transfer completes at the delivery of its last block: an MRSP, or a READ whose command has ended (R91, R164). -/
def State.completeDelivered (s : State) (tag : Nat) : State :=
  match s.transfer tag with
  | none => s
  | some t =>
    match t.kind with
    | .mrsp => s.finishTransfer t none
    | .read => if t.commandEnded ∧ t.count.getD 0 ≤ t.delivered then s.finishTransfer t t.ownError else s
    | _ => s

/-- The block is of a chunk above the cursor of the MOVE session on its slot: it is not delivered before the chunk below it has reached
its end (R155). -/
def State.aheadOfCursor (s : State) : Origin → Bool
  | .transit n c _ =>
      s.session.state ≠ .idle && s.session.slot = some n && s.session.mode = some .move && s.session.cursor.any (· < c)
  | _ => false

/-- The next block handed on is the last of a PASS-THROUGH READ whose disk command has not ended: its delivery falls at or after the
command's end (R91). -/
def Transfer.awaitsCommand (t : Transfer) : Bool :=
  t.kind = .read && t.handling = .passThrough && !t.commandEnded && t.count.getD 0 ≤ t.delivered + 1

/-- BLOCK_DELIVERY (R89, R91, R155): the next waiting block of a READ or MRSP is delivered on the controller port. That the MOVE-DONE of a
move the delivery completes is raised before the completion of the READ it completes, whose mark is then set (R103), is the model's choice
(log 11). -/
def State.deliver (s : State) (tag : Nat) : State :=
  match s.transfer tag with
  | none => s
  | some t =>
    match t.kind, t.output with
    | .read, b :: rest | .mrsp, b :: rest =>
        if s.aheadOfCursor b.origin || t.awaitsCommand then s else
        let s := s.modTransfer tag fun t => { t with output := rest, delivered := t.delivered + 1 }
        (((s.emit (.delivered tag b.data)).delivered b.origin).completeDelivered tag).settle
    | _, _ => s

/-- BLOCK_DELIVERY. -/
def execBlockDelivery (tag : Nat) (s : State) : Host.Outcome State Fault Refusal := s.whenPowered fun s => s.deliver tag

/-- The next waiting block of a WRITE is sent on the disk port (R89). -/
def State.sendBlock (s : State) (tag : Nat) : State :=
  match s.transfer tag with
  | none => s
  | some t =>
    match t.kind, t.output with
    | .write, b :: rest =>
        (s.modTransfer tag fun t => { t with output := rest, delivered := t.delivered + 1 }).emit
          (.toDisk (.tag tag) b.data)
    | _, _ => s

/-- The next block of the job's target WRITE is sent on the disk port (R141). -/
def State.sendJobBlock (s : State) : State :=
  match s.jobs.recoded[s.jobs.sent]? with
  | some data =>
      if (s.outstandingOf .job).any fun c => c.stage = some .write then
        (s.modJobs fun u => { u with sent := u.sent + 1 }).emit (.toDisk .job data)
      else s
  | none => s

/-- BLOCK_TO_DISK (R89). -/
def State.toDiskEvent (s : State) (owner : Owner) : State :=
  if s.isOutstanding owner then
    match owner with
    | .tag tag => s.sendBlock tag
    | .job => s.sendJobBlock
  else s

/-- BLOCK_TO_DISK. -/
def execBlockToDisk (owner : Owner) (s : State) : Host.Outcome State Fault Refusal :=
  s.whenPowered fun s => s.toDiskEvent owner

end Sys2Proof.Machine
end

