-- ==== Sys2Proof/Machine/PortCommands.lean ====
section
/-! DEFINITION. The meanings of the commands of the controller port (chapter 6, section 11.1) and of the controller-link reset
(R104). -/

namespace Sys2Proof.Machine

/-- READ (R87). -/
def execRead (tag first countField : Nat) (s : State) : Host.Outcome State Fault Refusal :=
  s.whenPowered fun s => s.arriveBlocks .read tag first countField

/-- WRITE (R87). -/
def execWrite (tag first countField : Nat) (s : State) : Host.Outcome State Fault Refusal :=
  s.whenPowered fun s => s.arriveBlocks .write tag first countField

/-- FLUSH (R101). -/
def execFlush (tag : Nat) (s : State) : Host.Outcome State Fault Refusal := s.whenPowered fun s => s.arriveFlush tag

/-- OTHER (R86, R177). -/
def execOther (tag code : Nat) (direction : DataDirection) (blocks : Option (Nat × Nat)) (s : State) :
    Host.Outcome State Fault Refusal :=
  s.whenPowered fun s => s.arriveCode tag code direction blocks

/-- MREQ (R162). -/
def execMreq (tag countField : Nat) (s : State) : Host.Outcome State Fault Refusal :=
  s.whenPowered fun s => s.arriveMreq tag countField

/-- MRSP (R164). -/
def execMrsp (tag countField : Nat) (s : State) : Host.Outcome State Fault Refusal :=
  s.whenPowered fun s => s.arriveMrsp tag countField

/-- A record is dropped by a controller-link reset, without a completion (R104). -/
def State.dropTransfer (s : State) (tag : Nat) : State :=
  match s.transfer tag with
  | none => s
  | some t => s.freeTransfer t

/-- Every record in the transfer table is dropped (R104). -/
def State.dropAll (s : State) : State := (s.transfers.map Transfer.tag).foldl State.dropTransfer s

/-- The disk-link reset that follows a controller-link reset: begun or joined, but in CUTOFF with the link not RESETTING only
RESET-SEEN is set (R125, R132; log 21). -/
def State.followReset (s : State) : State :=
  (if s.disk.healthState = .cutoff then s else s.beginReset).modDisk fun d => { d with resetSeen := true }

/-- CONTROLLER_LINK_RESET (R104), the link established again at a speed (R178). -/
def State.controllerReset (s : State) (speed : LinkSpeed) : State :=
  { s.dropAll.followReset with controllerSpeed := speed }.settle

/-- CONTROLLER_LINK_RESET. -/
def execControllerLinkReset (speed : LinkSpeed) (s : State) : Host.Outcome State Fault Refusal :=
  s.whenPowered fun s => s.controllerReset speed

end Sys2Proof.Machine
end

