-- ==== Sys2Proof/Machine/RequestCommands.lean ====
section
/-! DEFINITION. The meanings of the management requests: the request block of the kind arrives on the MREQ transfer in the table
(R163; log 13). -/

namespace Sys2Proof.Machine

/-- IDENT (R171). -/
def execIdent (number : Nat) (s : State) : Host.Outcome State Fault Refusal :=
  s.whenPowered fun s => s.takeRequest 0x01 number State.reqIdent

/-- MODE (R168). -/
def execMode (number target : Nat) (s : State) : Host.Outcome State Fault Refusal :=
  s.whenPowered fun s => s.takeRequest 0x02 number fun s => s.reqMode target

/-- SETUP (R170). -/
def execSetup (number first length depth bgLimit bgShare timeout warnLevel : Nat) (s : State) :
    Host.Outcome State Fault Refusal :=
  s.whenPowered fun s => s.takeRequest 0x03 number fun s => s.reqSetup first length depth bgLimit bgShare timeout warnLevel

/-- SETUP-READ (R170). -/
def execSetupRead (number : Nat) (s : State) : Host.Outcome State Fault Refusal :=
  s.whenPowered fun s => s.takeRequest 0x04 number State.reqSetupRead

/-- RESTART (R172). -/
def execRestart (number : Nat) (s : State) : Host.Outcome State Fault Refusal :=
  s.whenPowered fun s => s.takeRequest 0x05 number State.reqRestart

/-- NOTICE-TAKE (R174). -/
def execNoticeTake (number : Nat) (s : State) : Host.Outcome State Fault Refusal :=
  s.whenPowered fun s => s.takeRequest 0x06 number State.reqNoticeTake

/-- CLOCK-READ (R72). -/
def execClockRead (number : Nat) (s : State) : Host.Outcome State Fault Refusal :=
  s.whenPowered fun s => s.takeRequest 0x07 number State.reqClockRead

/-- CLOCK-ADVANCE (R73). -/
def execClockAdvance (number target : Nat) (s : State) : Host.Outcome State Fault Refusal :=
  s.whenPowered fun s => s.takeRequest 0x19 number fun s => s.reqClockAdvance target

/-- SLOT-OPEN (R24). -/
def execSlotOpen (number slot cls : Nat) (expiry : Option Nat) (s : State) : Host.Outcome State Fault Refusal :=
  s.whenPowered fun s => s.takeRequest 0x08 number fun s => s.reqSlotOpen slot cls expiry

/-- SLOT-FINISH (R26). -/
def execSlotFinish (number slot : Nat) (s : State) : Host.Outcome State Fault Refusal :=
  s.whenPowered fun s => s.takeRequest 0x09 number fun s => s.reqSlotFinish slot

/-- SLOT-DROP (R30, R62). -/
def execSlotDrop (number slot : Nat) (s : State) : Host.Outcome State Fault Refusal :=
  s.whenPowered fun s => s.takeRequest 0x0A number fun s => s.reqSlotDrop slot

/-- SLOT-VIEW (R34, R64). -/
def execSlotView (number slot : Nat) (s : State) : Host.Outcome State Fault Refusal :=
  s.whenPowered fun s => s.takeRequest 0x0B number fun s => s.reqSlotView slot

/-- SLOT-SCAN (R35). -/
def execSlotScan (number start count : Nat) (s : State) : Host.Outcome State Fault Refusal :=
  s.whenPowered fun s => s.takeRequest 0x0C number fun s => s.reqSlotScan start count

/-- RING-OPEN (R45). -/
def execRingOpen (number slot cls window size : Nat) (s : State) : Host.Outcome State Fault Refusal :=
  s.whenPowered fun s => s.takeRequest 0x0D number fun s => s.reqRingOpen slot cls window size

/-- EXTENT-LOAD (R13). -/
def execExtentLoad (number itemCount : Nat) (descs : List ExtentDesc) (s : State) :
    Host.Outcome State Fault Refusal :=
  s.whenPowered fun s => s.takeRequest 0x0E number fun s => s.reqExtentLoad itemCount descs

/-- EXTENT-CLEAR (R15). -/
def execExtentClear (number itemCount : Nat) (indices : List Nat) (s : State) : Host.Outcome State Fault Refusal :=
  s.whenPowered fun s => s.takeRequest 0x0F number fun s => s.reqExtentClear itemCount indices

/-- EXTENT-SCAN (R17). -/
def execExtentScan (number start count : Nat) (s : State) : Host.Outcome State Fault Refusal :=
  s.whenPowered fun s => s.takeRequest 0x10 number fun s => s.reqExtentScan start count

/-- JOB-ADOPT (R135). -/
def execJobAdopt (number source firstSource count target firstTarget : Nat) (s : State) :
    Host.Outcome State Fault Refusal :=
  s.whenPowered fun s => s.takeRequest 0x11 number fun s => s.reqJobAdopt source firstSource count target firstTarget

/-- JOB-CANCEL (R146). -/
def execJobCancel (number job : Nat) (s : State) : Host.Outcome State Fault Refusal :=
  s.whenPowered fun s => s.takeRequest 0x12 number fun s => s.reqJobCancel job

/-- JOB-SCAN (R147). -/
def execJobScan (number : Nat) (s : State) : Host.Outcome State Fault Refusal :=
  s.whenPowered fun s => s.takeRequest 0x13 number State.reqJobScan

/-- EXPORT-OPEN (R150). -/
def execExportOpen (number mode slot : Nat) (record : KeyRecord) (s : State) : Host.Outcome State Fault Refusal :=
  s.whenPowered fun s => s.takeRequest 0x14 number fun s => s.reqExportOpen mode slot record

/-- EXPORT-END (R157). -/
def execExportEnd (number : Nat) (s : State) : Host.Outcome State Fault Refusal :=
  s.whenPowered fun s => s.takeRequest 0x15 number State.reqExportEnd

/-- EXPORT-VIEW (R160). -/
def execExportView (number : Nat) (s : State) : Host.Outcome State Fault Refusal :=
  s.whenPowered fun s => s.takeRequest 0x16 number State.reqExportView

/-- LINK-VIEW (R130). -/
def execLinkView (number : Nat) (s : State) : Host.Outcome State Fault Refusal :=
  s.whenPowered fun s => s.takeRequest 0x17 number State.reqLinkView

/-- LINK-RESTORE (R131). -/
def execLinkRestore (number : Nat) (s : State) : Host.Outcome State Fault Refusal :=
  s.whenPowered fun s => s.takeRequest 0x18 number State.reqLinkRestore

end Sys2Proof.Machine
end

