-- ==== Sys2Proof/Machine/Dispatch.lean ====
section
/-! DEFINITION. The dispatch of a command to its meaning. -/

namespace Sys2Proof.Machine

def exec (i : Instr) (s : State) : Host.Outcome State Fault Refusal :=
  match i with
  | .powerOn speed => Sys2Proof.Machine.execPowerOn speed s
  | .powerLoss => Sys2Proof.Machine.execPowerLoss s
  | .slotLoad => Sys2Proof.Machine.execSlotLoad s
  | .controllerLinkReset speed => Sys2Proof.Machine.execControllerLinkReset speed s
  | .tick => Sys2Proof.Machine.execTick s
  | .minuteEvent => Sys2Proof.Machine.execMinuteEvent s
  | .sweepPass => Sys2Proof.Machine.execSweepPass s
  | .sweepEnd => Sys2Proof.Machine.execSweepEnd s
  | .commandTimeout owners => Sys2Proof.Machine.execCommandTimeout owners s
  | .diskLinkResetEnd speed => Sys2Proof.Machine.execDiskLinkResetEnd speed s
  | .diskLinkResetFail => Sys2Proof.Machine.execDiskLinkResetFail s
  | .linkLoss => Sys2Proof.Machine.execLinkLoss s
  | .commandSuccess owner => Sys2Proof.Machine.execCommandSuccess owner s
  | .commandFailure owner failing => Sys2Proof.Machine.execCommandFailure owner failing s
  | .dataFromController tag data => Sys2Proof.Machine.execDataFromController tag data s
  | .dataFromDisk owner data => Sys2Proof.Machine.execDataFromDisk owner data s
  | .cipheringEnd => Sys2Proof.Machine.execCipheringEnd s
  | .blockDelivery tag => Sys2Proof.Machine.execBlockDelivery tag s
  | .blockToDisk owner => Sys2Proof.Machine.execBlockToDisk owner s
  | .storeWriteEnd => Sys2Proof.Machine.execStoreWriteEnd s
  | .read tag first countField => Sys2Proof.Machine.execRead tag first countField s
  | .write tag first countField => Sys2Proof.Machine.execWrite tag first countField s
  | .flush tag => Sys2Proof.Machine.execFlush tag s
  | .other tag code direction blocks => Sys2Proof.Machine.execOther tag code direction blocks s
  | .mreq tag countField => Sys2Proof.Machine.execMreq tag countField s
  | .mrsp tag countField => Sys2Proof.Machine.execMrsp tag countField s
  | .ident number => Sys2Proof.Machine.execIdent number s
  | .mode number target => Sys2Proof.Machine.execMode number target s
  | .setup number first length depth bgLimit bgShare timeout warnLevel => Sys2Proof.Machine.execSetup number first length depth bgLimit bgShare timeout warnLevel s
  | .setupRead number => Sys2Proof.Machine.execSetupRead number s
  | .restart number => Sys2Proof.Machine.execRestart number s
  | .noticeTake number => Sys2Proof.Machine.execNoticeTake number s
  | .clockRead number => Sys2Proof.Machine.execClockRead number s
  | .clockAdvance number target => Sys2Proof.Machine.execClockAdvance number target s
  | .slotOpen number slot cls expiry => Sys2Proof.Machine.execSlotOpen number slot cls expiry s
  | .slotFinish number slot => Sys2Proof.Machine.execSlotFinish number slot s
  | .slotDrop number slot => Sys2Proof.Machine.execSlotDrop number slot s
  | .slotView number slot => Sys2Proof.Machine.execSlotView number slot s
  | .slotScan number start count => Sys2Proof.Machine.execSlotScan number start count s
  | .ringOpen number slot cls window size => Sys2Proof.Machine.execRingOpen number slot cls window size s
  | .extentLoad number itemCount descs => Sys2Proof.Machine.execExtentLoad number itemCount descs s
  | .extentClear number itemCount indices => Sys2Proof.Machine.execExtentClear number itemCount indices s
  | .extentScan number start count => Sys2Proof.Machine.execExtentScan number start count s
  | .jobAdopt number source firstSource count target firstTarget => Sys2Proof.Machine.execJobAdopt number source firstSource count target firstTarget s
  | .jobCancel number job => Sys2Proof.Machine.execJobCancel number job s
  | .jobScan number => Sys2Proof.Machine.execJobScan number s
  | .exportOpen number mode slot record => Sys2Proof.Machine.execExportOpen number mode slot record s
  | .exportEnd number => Sys2Proof.Machine.execExportEnd number s
  | .exportView number => Sys2Proof.Machine.execExportView number s
  | .linkView number => Sys2Proof.Machine.execLinkView number s
  | .linkRestore number => Sys2Proof.Machine.execLinkRestore number s

end Sys2Proof.Machine
end

