-- ==== Sys2Proof/Safety.lean ====
section
/-! DEFINITION. The laws the state keeps, the terms in which statements speak of a state (a part at rest, a part that serves a
request), and the ends of requests as chapter 11 gives them. -/

namespace Sys2Proof.Machine

/-! ### Laws of the transfer table -/

/-- The tags that stand in some list of the part: the issue queue, wait sets, held lists, the session's lists, and the owner of the
burst in progress. -/
def State.listedTags (s : State) : List Nat :=
  s.issueQueue ++ s.transfers.flatMap Transfer.waitSet ++ ringNumbers.flatMap (fun n => (s.ring n).held.map (·.1))
    ++ s.session.held.map (·.1) ++ s.session.heldBack
    ++ (match s.engine.burst with
        | some b => (match b.owner with | .tag n => [n] | .job => [])
        | none => [])

/-- A transfer that names no block, holds no reference and no write in flight, and waits for nothing. -/
def Transfer.holdsNothing (t : Transfer) : Bool :=
  t.first.isNone && t.fragments.isEmpty && t.writeSlots.isEmpty && t.waitSet.isEmpty

/-- The law of the transfer table: one record a tag (R85), at most one MREQ (R162, R163), a MANAGEMENT transfer holds no reference
(R162), and every list names disk-bound transfers of the table. -/
def State.transfersOk (s : State) : Bool :=
  decide (s.transfers.map Transfer.tag).Nodup
    && decide ((s.transfers.filter fun t => t.kind = .mreq).length ≤ 1)
    && s.transfers.all (fun t => t.kind.diskBound || t.holdsNothing)
    && s.listedTags.all fun tag => s.transfers.any fun t => t.tag = tag && t.kind.diskBound

/-- The tags that stand in a held list, of a ring or of the session. -/
def State.heldTags (s : State) : List Nat :=
  s.session.held.map (·.1) ++ s.rings.flatMap fun x => x.2.held.map (·.1)

/-- A transfer that is QUEUED has requested no burst, has no ended command and waits in no held list (R88, R89, R90). -/
def State.queuedOk (s : State) (t : Transfer) : Bool :=
  t.state ≠ .queued || (!t.ready && !t.commandEnded && !s.heldTags.contains t.tag)

/-- An outstanding command belongs to the job unit or to a transfer of the table that needs one, is not QUEUED and whose command has not
ended (R89, R119). -/
def State.ownerOk (s : State) : Owner → Bool
  | .tag tag => (s.transfer tag).any fun t => t.state ≠ .queued && t.kind.diskBound && !t.commandEnded
  | .job => true

/-- The law of the issue queue: it names each tag once, and only those of QUEUED transfers (R88), whose commands are not outstanding (R89);
nothing is outstanding unless the link is UP and the port not in CUTOFF (R125, R128); ring slots are 64 to 67 (R43). -/
def State.issueOk (s : State) : Bool :=
  decide s.issueQueue.Nodup && (s.issueQueue.all fun tag => (s.transfer tag).any fun t => t.state = .queued)
    && s.transfers.all s.queuedOk && (s.disk.outstanding.all fun c => s.ownerOk c.owner)
    && (s.disk.outstanding.isEmpty || (s.disk.link = .up && s.disk.healthState ≠ .cutoff))
    && s.rings.all fun x => ringNumbers.contains x.1 || (x.2.state ≠ .running && x.2.held.isEmpty)

/-! ### Laws of the other units -/

/-- R134, R133: at most 8 jobs with distinct numbers; the jobs behind the head stay WAITING. -/
def State.jobsOk (s : State) : Bool :=
  decide (s.jobs.queue.length ≤ 8) && decide (s.jobs.queue.map Job.number).Nodup
    && s.jobs.queue.tail.all fun j => j.state = .waiting

/-- The tables stand in their canonical form (log 31). -/
def State.tablesOk (s : State) : Bool :=
  Table.wf {} s.extents && Table.wf {} s.recs && Table.wf {} s.rings && Table.wf none s.tags && Table.wf {} s.store.records

/-- R115, R113, R112: the counts of the arbiter stay in their ranges, and a burst that is cancellable was granted below a cancel count
of 3; the burst in progress has an origin for each of its blocks. -/
def Engine.countsOk (e : Engine) : Bool :=
  e.cancels ≤ 3 && e.position ≤ 15 && e.share ≤ 15
    && !(e.burst.any fun b => b.owner = .job && b.cancellable && 3 ≤ e.cancels)
    && e.burst.all fun b => b.inputs.length ≤ b.origins.length

/-- R126, R127: the health count is at most 255, and the state follows the count while it is not CUTOFF. -/
def DiskPort.healthOk (d : DiskPort) : Bool :=
  d.health ≤ 255
    && (match d.healthState with
        | .normal => d.health ≤ 95
        | .warning => 96 ≤ d.health && d.health ≤ 127
        | .degraded => 128 ≤ d.health
        | .cutoff => true)

/-- R173: at most 32 notices, no two of one kind and subject, each raised 1 to 255 times. -/
def Mgmt.noticesOk (m : Mgmt) : Bool :=
  m.notices.length ≤ 32 && decide (m.notices.map fun n => (n.kind, n.subject)).Nodup
    && m.notices.all fun n => 1 ≤ n.count && n.count ≤ 255

/-- The counts of the arbiter, the disk port and the notice list stay in their ranges. -/
def State.countsOk (s : State) : Bool := s.engine.countsOk && s.disk.healthOk && s.mgmt.noticesOk

/-- The owner of a key stands in a state that holds it (R83): a slot neither EMPTY nor ERASING, a LIVE epoch of a RUNNING ring, a
session that is not NONE. -/
def State.mayHold (s : State) : KeyOwner → Bool
  | .slot n =>
      if n < 64 then (s.recSlot n).state = .opened || (s.recSlot n).state = .finished || (s.recSlot n).state = .moving
      else (s.ring n).state = .running
  | .epoch n serial => (s.ring n).state = .running && (s.ring n).isLive serial
  | .transit => s.session.state ≠ .idle

/-- The load events are those of recording slots 0 to 63 (R40). -/
def Loading.inRange : Loading → Bool
  | .slot n => n < 64
  | _ => true

/-- R83, R75: every key held belongs to an owner that may hold it, and an owner has at most one; the slot table loads slots 0 to 63
(R40). -/
def State.keysOk (s : State) : Bool :=
  s.keys.all (fun k => s.mayHold k.owner) && decide (s.keys.map KeyEntry.owner).Nodup && s.mgmt.loading.inRange

/-- R12, R5: entries that are VALID or RETIRING are aligned and no two of them overlap. -/
def State.extentsDisjoint (s : State) : Bool :=
  s.extents.all (fun x => x.2.state = .empty || x.2.base % 2 ^ x.2.exponent = 0)
    && s.extents.all fun x => s.extents.all fun y =>
        x.1 = y.1 || x.2.state = .empty || y.2.state = .empty
          || !runsOverlap x.2.base x.2.exponent y.2.base y.2.exponent

/-- R16: every VALID entry names a slot that is OPEN, FINISHED, MOVING or RUNNING. In STARTING the map is empty and no MREQ is in the
table (R162, R19), and loading goes on only in STARTING (R167). -/
def State.namesOk (s : State) : Bool :=
  s.extents.all (fun x => x.2.state ≠ .valid || s.nameable x.2.slot)
    && (s.mgmt.mode ≠ .starting || (s.extents.isEmpty && s.mreqTransfer.isNone))
    && (s.mgmt.loading = .finished || s.mgmt.mode = .starting)

/-- R49, R51: a ring has at most 8 LIVE epochs; no LIVE epoch of a RUNNING ring has reached its open minute + W. Until the clock is set
no ring exists (R65, R66). -/
def State.epochsOk (s : State) : Bool :=
  ringNumbers.all (fun n =>
      (s.ring n).liveEpochs.length ≤ 8
        && ((s.ring n).state ≠ .running
          || (1 ≤ (s.ring n).window
            && (s.ring n).liveEpochs.all fun e => s.clock.minutes < e.openMinute + (s.ring n).window)))
    && ((s.clock.running && s.mgmt.loading ≠ .timeRecord)
      || (s.rings.isEmpty && s.mgmt.mode = .starting && s.mreqTransfer.isNone))

/-- R149: a slot is MOVING only as the slot of a MOVE session that is not NONE. -/
def State.sessionOk (s : State) : Bool :=
  (List.range 64).all fun n =>
    (s.recSlot n).state ≠ .moving
      || (s.session.state ≠ .idle && s.session.mode = some .move && s.session.slot = some n)

/-- R48: the allocated tag ranges are not empty, lie in the tag store and are disjoint. -/
def State.rangesOk (s : State) : Bool :=
  ringNumbers.all fun n =>
    (s.ring n).state = .empty
      || (1 ≤ (s.ring n).size && (s.ring n).tagStart + (s.ring n).size ≤ tagStoreSize
        && ringNumbers.all fun k =>
            k = n || (s.ring k).state = .empty || (s.ring n).tagStart + (s.ring n).size ≤ (s.ring k).tagStart
              || (s.ring k).tagStart + (s.ring k).size ≤ (s.ring n).tagStart)

/-! ### A part at rest -/

/-- No block of the part has anything to do by itself: no burst waits or can be requested, no transfer is due to join the issue queue,
the head job waits for an event, no command can be issued, no ENDING session and no DRAINING has reached its end, no erasing slot is due
to become EMPTY, the store writer, the sweeper and the loader have nothing to begin. -/
def State.atRest (s : State) : Bool :=
  s.transfers.all (fun t => !t.ready && !s.canRequest t && !s.dueToJoin t) && s.jobs.burst.isNone && s.jobStep.isNone
    && !s.session.slot.any s.sessionOver && !s.drained
    && (!s.mayIssue || (s.issueQueue.isEmpty && s.issuableJob.isNone))
    && s.recs.all (fun x => !(x.2.state = .erasing && x.2.erased && !s.named x.1))
    && s.rings.all (fun x => !(x.2.state = .erasing && !s.named x.1))
    && (s.store.writer.isSome || s.store.queue.isEmpty) && s.mgmt.loading ≠ .draining
    && (s.sweep.isSome || s.sweepQueue.isEmpty)

/-! ### A burst about to be taken -/

/-- The next block of the PROTECTED transfer `u` of tag `n` is the last its next burst `r` waits for (R89): the part is at rest with a
free engine, so that this burst alone is requested and taken at the block's arrival (R109, R112). -/
def State.completesBurst (s : State) (n : Nat) (u : Transfer) (r : BurstRange) : Bool :=
  s.powered && s.transfersOk && s.atRest && s.engine.burst.isNone && n < 16
    && s.transfer n = some u && u.handling = .guarded && u.state = .active && !s.inHeldList n
    && u.arrived < u.count.getD 0 && s.nextBurst u = some r && u.input.length + 1 = r.count

/-- The record of that transfer with its burst decided (R89, R94): the block has arrived, the blocks of the burst no longer wait for one, and
the chunk of the burst is kept. -/
def Transfer.burstDecided (u : Transfer) (r : BurstRange) (chunk : Nat) : Transfer :=
  { u with arrived := u.arrived + 1, input := [], covered := u.covered + r.count, ready := false, lastChunk := some chunk }

/-- First error once a block with a reason is taken into it (R97): the lowest block, the reason recorded first. -/
def firstErrorWith (old : Option (Nat × Reason)) (block : Nat) (reason : Reason) : Option (Nat × Reason) :=
  match old with
  | none => some (block, reason)
  | some (b, x) => if block < b then some (block, reason) else some (b, x)

/-- The state once that burst is decided without ciphering (R95, R97): zero blocks wait for hand-on, first error is taken, and nothing else
changes but the position of the arbiter. -/
def State.burstZeroed (s : State) (n : Nat) (u : Transfer) (r : BurstRange) (chunk : Nat) (reason : Reason) : State :=
  { s with
    engine := { s.engine with position := n }
    transfers := s.transfers.map fun t =>
      if t.tag = n then
        { u.burstDecided r chunk with
          output := u.output ++ List.replicate r.count ⟨zeroBlock, .zero⟩
          firstError := firstErrorWith u.firstError r.first reason }
      else t }

/-- The state once that burst is in the engine (R108, R109). -/
def State.burstStarted (s : State) (n : Nat) (u : Transfer) (r : BurstRange) (chunk : Nat) (b : Burst) : State :=
  { s with
    engine := { s.engine with position := n, burst := some b }
    transfers := s.transfers.map fun t => if t.tag = n then u.burstDecided r chunk else t }

/-! ### The ends of requests (R163, R165) -/

/-- The part has power, its transfer table keeps its law, and `m` is the MREQ in the table. -/
def State.serving (s : State) (m : Transfer) : Bool := s.powered && s.transfersOk && s.mreqTransfer = some m

/-- The MREQ `m` completes GOOD (R163): its completion carries the notice-pending mark as it stands (R103), its record is free, and
advance pending is looked at as at every end of a transfer (R155). -/
def State.mreqEnds (s : State) (m : Transfer) : State :=
  ({ s with
      sent := s.sent ++ [.completion m.tag .good 0 0 (!s.mgmt.notices.isEmpty)]
      transfers := s.transfers.filter fun t => t.tag ≠ m.tag } : State).checkAdvance

/-- A request final at its own execution (R165): the response is `r`, no request is in progress, and the MREQ completes. -/
def State.finalAtOnce (s : State) (m : Transfer) (r : Response) : State :=
  ({ s with mgmt := { s.mgmt with request := none, response := some r } } : State).mreqEnds m

/-- A request that stays in progress (R165): its response reads PENDING, it waits for `w`, and the MREQ completes. -/
def State.leftPending (s : State) (m : Transfer) (kind number : Nat) (w : Wait) : State :=
  ({ s with
      mgmt := { s.mgmt with
        request := some { kind, number, wait := w }
        response := some { kind, number, result := .pending } } } : State).mreqEnds m

end Sys2Proof.Machine
end

