-- ==== Sys2Proof/Certificates/Slice0/Obligations.lean ====
section
/-! DEFINITION. The statements for the provers. -/

section

open Sys2Proof Sys2Proof.Machine

/-! ### The queue of commands, power, loading -/

/-- A step takes the command at the front of the queue and runs it with the queue's rest; on an empty queue the part idles (the model's
choice, log 9). -/
def Obligations.StepRunsFront : Prop :=
  (∀ (c : Instr) (rest : List Instr) (s : State),
      step { s with pending := c :: rest } = exec c { s with pending := rest })
    ∧ ∀ s : State, s.pending = [] → step s = .next s

/-- Every command completes: the part has no event that stops it. A command leaves the queue of waiting commands alone, and the part
without power does nothing until POWER_ON (log 27). -/
def Obligations.EveryCommandCompletes : Prop :=
  ∀ (c : Instr) (s : State), ∃ t, exec c s = .next t ∧ t.pending = s.pending
    ∧ ((∀ speed, c ≠ .powerOn speed) → s.powered = false → t = s)

/-- POWER_ON starts the part without power in STARTING, with the values chapters 1 to 11 give for power-on; what the slot store holds is
kept. -/
def Obligations.PowerOnStarts : Prop :=
  ∀ (speed : LinkSpeed) (s : State), s.powered = false →
    ∃ t, exec (.powerOn speed) s = .next t ∧ t.powered = true ∧ t.controllerSpeed = speed
      ∧ t.mgmt.mode = .starting ∧ t.mgmt.request = none ∧ t.mgmt.response = none ∧ t.mgmt.notices = []
      ∧ t.mgmt.overflowed = false
      ∧ t.mgmt.setup = { first := 0, length := 0, depth := 8, bgLimit := 1, bgShare := 4, timeout := 50, warnLevel := 6 }
      ∧ (∀ i, t.extent i = { state := .empty, base := 0, exponent := 0, slot := 0, firstOrdinal := 0, inUse := 0 })
      ∧ (∀ n, (t.ring n).state = .empty ∧ (t.ring n).changed = true) ∧ (∀ i, t.tagAt i = none)
      ∧ t.sweep = none ∧ t.sweepQueue = [] ∧ t.keys = [] ∧ t.transfers = [] ∧ t.issueQueue = []
      ∧ t.engine = { burst := none, position := 15, share := 0, cancels := 0 }
      ∧ t.disk.outstanding = [] ∧ t.disk.health = 0 ∧ t.disk.healthState = .normal ∧ t.disk.timeoutSeen = false
      ∧ t.disk.failureSeen = false ∧ t.disk.resetSeen = false ∧ t.disk.link = .resetting
      ∧ t.jobs.queue = [] ∧ t.session.state = .idle ∧ t.session.slot = none ∧ t.session.endCause = none
      ∧ t.store = s.store ∧ t.clock.running = false ∧ t.sent = s.sent ∧ t.pending = s.pending

/-- POWER_LOSS interrupts the store write in progress, whose record is damaged, and loses the queue and all volatile state; every other
stored record keeps its content. That what is lost reads as at power-on until POWER_ON is the model's choice (log 27). -/
def Obligations.PowerLossDamages : Prop :=
  ∀ s : State, s.powered = true →
    ∃ t, exec .powerLoss s = .next t ∧ t.powered = false ∧ t.store.queue = [] ∧ t.store.writer = none
      ∧ (∀ n, t.storedRec n =
          if s.store.writer.any (fun w => w.record = .slot n) then { s.storedRec n with damaged := true }
          else s.storedRec n)
      ∧ t.store.time =
          (if s.store.writer.any (fun w => w.record = .time) then { s.store.time with damaged := true } else s.store.time)
      ∧ t.recs = [] ∧ t.rings = [] ∧ t.tags = [] ∧ t.extents = [] ∧ t.keys = [] ∧ t.transfers = [] ∧ t.issueQueue = []
      ∧ t.jobs = {} ∧ t.session = {} ∧ t.engine = {} ∧ t.disk = {} ∧ t.mgmt = {} ∧ t.clock = {}
      ∧ t.sent = s.sent ∧ t.draws = s.draws

/-- The first load event (R69): an intact time record holding v sets the minute count to v + 15, or 4,294,967,295, and demands a time
save; a damaged one leaves the clock unset. -/
def Obligations.ClockRestored : Prop :=
  ∀ s : State, s.powered = true → s.mgmt.loading = .timeRecord →
    ∃ t, exec .slotLoad s = .next t ∧ t.mgmt.loading = .slot 0
      ∧ (s.store.time.damaged = false →
          t.clock = { minutes := min 4294967295 (s.store.time.minutes + 15), ticks := 0
                      persisted := some s.store.time.minutes, source := .intact, running := true, target := none }
            ∧ (RecordId.time ∈ t.store.queue ∨ t.store.writer.any (fun w => w.record = .time)))
      ∧ (s.store.time.damaged = true → t.clock = s.clock)

/-- A load event of recording slot n (R40): the record and the key by the stored record; a damaged one comes back EMPTY, is queued for
the store and raises RECORD-DAMAGED. -/
def Obligations.RecordLoads : Prop :=
  ∀ (s : State) (n : Nat), s.powered = true → s.atRest = true → s.mgmt.mode = .starting →
    s.mgmt.loading = .slot n → n ≤ 63 →
    ∃ t, exec .slotLoad s = .next t
      ∧ (∀ k, k ≠ n → t.recSlot k = s.recSlot k)
      ∧ t.recSlot n =
          (if (s.storedRec n).damaged then { persisting := true }
           else match (s.storedRec n).state with
            | .empty => {}
            | .opened =>
              { state := .opened, cls := (s.storedRec n).cls, nonce := (s.storedRec n).nonce
                high := (s.storedRec n).high, length := (s.storedRec n).length, expiry := (s.storedRec n).expiry
                floor := (s.storedRec n).floor, persistedFloor := (s.storedRec n).floor
                created := (s.storedRec n).created, finishPending := false, inFlight := 0, changed := true
                persisting := false }
            | .finished =>
              { state := .finished, cls := (s.storedRec n).cls, nonce := (s.storedRec n).nonce
                high := (s.storedRec n).high, length := (s.storedRec n).length, expiry := (s.storedRec n).expiry
                floor := (s.storedRec n).floor, persistedFloor := (s.storedRec n).floor
                created := (s.storedRec n).created, finishPending := false, inFlight := 0, changed := true
                persisting := false })
      ∧ t.keyEntry (.slot n) =
          (if (s.storedRec n).damaged = true ∨ (s.storedRec n).state = .empty then none
           else some ⟨.slot n, deriveSlotKey n (s.storedRec n).nonce,
             expandPair (deriveSlotKey n (s.storedRec n).nonce)⟩)
      ∧ (∀ o, o ≠ KeyOwner.slot n → t.keyEntry o = s.keyEntry o)
      ∧ ((s.storedRec n).damaged = true →
          (RecordId.slot n ∈ t.store.queue ∨ t.store.writer.any (fun w => w.record = .slot n))
            ∧ (t.mgmt.overflowed = true ∨ ∃ x ∈ t.mgmt.notices, x.kind = .recordDamaged ∧ x.subject = some n))
      ∧ t.mgmt.loading = (if n = 63 then .finished else .slot (n + 1))
      ∧ t.extents = s.extents ∧ t.rings = s.rings ∧ t.tags = s.tags ∧ t.transfers = s.transfers ∧ t.session = s.session
      ∧ t.jobs = s.jobs ∧ t.engine = s.engine ∧ t.sent = s.sent ∧ t.store.records = s.store.records

/-- The load event of slot 63 completes loading (R167): the mode becomes CONFIG; a clock not yet set takes the largest expiry minute of
the recording slots loaded OPEN or FINISHED, or 0, with CLOCK-LOST (R70); a waiting RESTART is answered OK (R172). -/
def Obligations.LoadingCompletes : Prop :=
  ∀ s : State, s.powered = true → s.atRest = true → s.mgmt.mode = .starting → s.mgmt.loading = .slot 63 →
    ∃ t, exec .slotLoad s = .next t ∧ t.mgmt.mode = .config ∧ t.mgmt.loading = .finished
      ∧ (s.clock.running = true → t.clock = s.clock)
      ∧ (s.clock.running = false → ∃ v,
          t.clock = { minutes := v, ticks := 0, persisted := none, source := .damaged, running := true, target := none }
            ∧ (∀ n x, n ≤ 63 → ((t.recSlot n).state = .opened ∨ (t.recSlot n).state = .finished) →
                (t.recSlot n).expiry = some x → x ≤ v)
            ∧ (v = 0 ∨ ∃ n, n ≤ 63 ∧ ((t.recSlot n).state = .opened ∨ (t.recSlot n).state = .finished)
                ∧ (t.recSlot n).expiry = some v)
            ∧ (RecordId.time ∈ t.store.queue ∨ t.store.writer.any (fun w => w.record = .time))
            ∧ (t.mgmt.overflowed = true ∨ ∃ x ∈ t.mgmt.notices, x.kind = .clockLost ∧ x.subject = none))
      ∧ (∀ r, s.mgmt.request = some r → r.wait = .restart →
          t.mgmt.request = none ∧ t.disk.timeoutSeen = false ∧ t.disk.failureSeen = false ∧ t.disk.resetSeen = false
            ∧ t.mgmt.response = some { kind := r.kind, number := r.number, result := .ok })

/-! ### Ticks, minutes, sweeps -/

/-- A tick (R66): it raises the tick-in-minute count and counts down the timeouts of outstanding commands (R123), or counts towards the
end of a disk-link reset (R125). At the 600th tick the count returns to 0 and the minute count rises (R67). No tick comes before the
clock is set. The 100th tick of a reset ends it with failure. -/
def Obligations.TickCounts : Prop :=
  (∀ s : State, s.powered = true → s.clock.running = true → s.clock.ticks < 599 → s.atRest = true →
    (s.disk.link ≠ .resetting → (∀ c ∈ s.disk.outstanding, ∀ n, c.timeout = some n → 2 ≤ n) →
      exec .tick s = .next
        { s with
          clock := { s.clock with ticks := s.clock.ticks + 1 }
          disk := { s.disk with
            outstanding := s.disk.outstanding.map fun c => { c with timeout := c.timeout.map fun n => n - 1 } } })
    ∧ (s.disk.link = .resetting → s.disk.resetTicks < 99 →
      exec .tick s = .next
        { s with
          clock := { s.clock with ticks := s.clock.ticks + 1 }
          disk := { s.disk with resetTicks := s.disk.resetTicks + 1 } }))
  ∧ (∀ s : State, s.powered = true → s.clock.running = true → s.clock.ticks = 599 →
      ∃ t, exec .tick s = .next t ∧ t.clock.ticks = 0 ∧ t.clock.minutes = min 4294967295 (s.clock.minutes + 1))
  ∧ (∀ s : State, s.powered = true → s.clock.running = true → s.disk.link = .resetting → 99 ≤ s.disk.resetTicks →
      ∃ t, exec .tick s = .next t ∧ t.disk.link = .down ∧ t.disk.healthState = .cutoff)
  ∧ ∀ s : State, s.powered = true → s.clock.running = false → exec .tick s = .next s

/-- A minute event: the count rises by 1 unless it has saturated (R67), a rise to a multiple of 15 demands a time save (R68), every LIVE
epoch of a RUNNING ring that has reached its window loses its key (R50, R51), and after it no loaded recording slot that is OPEN,
FINISHED or MOVING has an expiry minute at or below the count (R71). A head job whose last chunk is ciphered from an epoch that expires
so completes, with JOB-DONE and not JOB-ENDED, whatever expires besides it (R142, R141; that the job unit acts before the expiry check is the
model's choice, log 11). R66 has the minute event at the 600th tick only: that the command may
come at any tick count, which is then 0, is the model's choice (log 10). -/
def Obligations.MinuteEventActs : Prop :=
  ∀ s : State, s.powered = true → s.clock.running = true →
    ∃ t, exec .minuteEvent s = .next t
      ∧ t.clock = { s.clock with minutes := min 4294967295 (s.clock.minutes + 1), ticks := 0 }
      ∧ (s.clock.minutes < 4294967295 → (s.clock.minutes + 1) % 15 = 0 →
          RecordId.time ∈ t.store.queue ∨ t.store.writer.any (fun w => w.record = .time))
      ∧ (∀ n, 64 ≤ n → n ≤ 67 → (s.ring n).state = .running → ∀ e ∈ (s.ring n).epochs, e.state = .live →
          e.openMinute + (s.ring n).window ≤ t.clock.minutes → t.keyEntry (.epoch n e.serial) = none)
      ∧ (s.mgmt.loading = .finished → ∀ n x, n ≤ 63 → (t.recSlot n).expiry = some x →
          ((t.recSlot n).state = .opened ∨ (t.recSlot n).state = .finished ∨ (t.recSlot n).state = .moving) →
          t.clock.minutes < x)
      ∧ (∀ j e, s.headJob = some j → j.state = .running → j.stage = .cipher → j.count = j.done + 1 → 64 ≤ j.source → j.source ≤ 67 →
          (s.ring j.source).state = .running → e ∈ (s.ring j.source).epochs → e.state = .live →
          e.openMinute + (s.ring j.source).window ≤ t.clock.minutes → j.chunkEpoch = some (e.serial, e.sequence) →
          (∀ x ∈ t.jobs.queue, x.number ≠ j.number)
            ∧ (t.mgmt.overflowed = true ∨ ∃ z ∈ t.mgmt.notices, z.kind = .jobDone ∧ z.subject = some j.number))

/-- A sweep passes the next tag of its range (R58): a tag that holds the sweep's serial becomes empty, any other is left alone. Nothing
else of the part changes. -/
def Obligations.SweepPassesTag : Prop :=
  ∀ (s : State) (w : RunningSweep), s.powered = true → s.sweep = some w → w.position < (s.ring w.slot).size →
    ∃ t, exec .sweepPass s = .next t
      ∧ (∀ i, t.tagAt i =
          if i = (s.ring w.slot).tagStart + w.position ∧ s.tagAt i = some w.serial then none else s.tagAt i)
      ∧ t.sweep = some { w with position := w.position + 1 }
      ∧ { t with tags := s.tags, sweep := s.sweep } = s

/-- The end of a sweep (R58, R59): no tag of the range holds the serial, the epoch's entry leaves the list, changed is set, and the sweeper
begins the next sweep of the queue; nothing else happens where no transfer and no job waits for it. The transfers of the held list that await
the serial leave it, become ACTIVE and request their given-back bursts anew (R56): with the engine at work they wait; with a free engine the
burst of the one that waits is taken and decides afresh, and opens the epoch when it finds an open due. A job STARTING on the ring asks for
its forced open again (R57): granted, it is RUNNING with its fence and the READ of its chunk; else it stays STARTING. -/
def Obligations.SweepEndsEpoch : Prop :=
  ∀ (s : State) (w : RunningSweep) (g : RingSlot) (stay : List Epoch), s.powered = true → s.atRest = true → s.sweep = some w →
    g = s.ring w.slot → stay = g.epochs.filter (fun e => !(e.serial = w.serial && e.state = .sweeping)) →
    (∀ c, c < w.position → s.tagAt (g.tagStart + c) ≠ some w.serial) → Table.wf none s.tags = true →
    let noJob := ∀ j, s.headJob = some j → j.state ≠ .starting
    let noHeld := ∀ h ∈ g.held, h.2 ≠ w.serial
    let others := g.held.filter fun h => h.2 ≠ w.serial
    let swept : State → Prop := fun t =>
      t.sweep = s.sweepQueue.head?.map (fun q => ⟨q.slot, q.serial, 0⟩) ∧ t.sweepQueue = s.sweepQueue.tail
        ∧ ∀ n, n ≠ w.slot → t.ring n = s.ring n
    let cleared : State → Prop := fun t =>
      (∀ c, c < g.size → t.tagAt (g.tagStart + c) ≠ some w.serial)
        ∧ ∀ i, s.tagAt i ≠ some w.serial → t.tagAt i = s.tagAt i
    let serial := match g.lastSerial with | none => 0 | some l => (l + 1) % 16
    let sequence := (g.sequence + 1) % 4294967296
    let live := g.liveEpochs.length
    let opened : RingSlot := { g with
      epochs := stay ++ [⟨serial, sequence, s.clock.minutes, .live⟩], lastSerial := some serial, sequence := sequence
      held := others, changed := true }
    let waits : Nat × Nat → Transfer → BurstRange → Prop := fun h u r =>
      s.transfer h.1 = some u ∧ u.tag < 16 ∧ u.handling = .guarded ∧ u.state = .held ∧ u.kind = .write
        ∧ s.nextBurst u = some r ∧ r.count ≤ u.input.length
        ∧ (∀ x ∈ s.session.held, x.1 ≠ h.1)
        ∧ ∀ n, 64 ≤ n → n ≤ 67 → ∀ x ∈ (s.ring n).held, x.1 = h.1 → n = w.slot ∧ x.2 = w.serial
    (noJob → noHeld → ∃ t, exec .sweepEnd s = .next t ∧ swept t ∧ cleared t
      ∧ t.ring w.slot = { g with epochs := stay, changed := true }
      ∧ { t with tags := s.tags, rings := s.rings, sweep := s.sweep, sweepQueue := s.sweepQueue } = s)
    ∧ (noJob → s.transfersOk = true → ∀ b, s.engine.burst = some b → (b.owner = .job → b.cancellable = false) →
      (∀ h ∈ g.held, h.2 = w.serial → b.owner ≠ .tag h.1 ∧ ∃ u r, waits h u r) →
      64 ≤ w.slot → w.slot ≤ 67 → ∃ t, exec .sweepEnd s = .next t ∧ swept t ∧ cleared t
        ∧ t.ring w.slot = { g with epochs := stay, held := others, changed := true }
        ∧ t.transfers = s.transfers.map (fun u =>
            if (u.tag, w.serial) ∈ g.held then { u with state := .active, ready := true } else u)
        ∧ { t with tags := s.tags, rings := s.rings, sweep := s.sweep, sweepQueue := s.sweepQueue
                   transfers := s.transfers } = s)
    ∧ (noJob → s.transfersOk = true → s.engine.burst = none → ∀ h u r e k, g.held.filter (fun x => x.2 = w.serial) = [h] →
      waits h u r → r.fragment.entry = some e → (s.extent e).slot = w.slot → 64 ≤ w.slot → w.slot ≤ 67 →
      g.state = .running → s.keyEntry (.slot w.slot) = some k → live < 8 → serial = w.serial →
      u.lastChunk ≠ some ((r.first - s.mgmt.setup.first) / 256) →
      (∀ cur, g.liveEpochs.getLast? = some cur → cur.openMinute + g.epochLength ≤ s.clock.minutes) →
      ∃ t b v, exec .sweepEnd s = .next t ∧ swept t ∧ t.ring w.slot = opened
        ∧ t.engine.burst = some b ∧ b.owner = .tag h.1 ∧ b.first = r.first ∧ b.inputs = u.input.take r.count
        ∧ b.composition = .encipher (expandPair (deriveEpochKey k.source sequence s.clock.minutes))
        ∧ t.transfer h.1 = some v ∧ v.state = .active ∧ v.covered = u.covered + r.count)
    ∧ (noHeld → ∀ j, s.headJob = some j → j.state = .starting → j.source = w.slot → s.mgmt.mode = .run →
      (s.disk.healthState = .normal ∨ s.disk.healthState = .warning) → 1 ≤ s.mgmt.setup.bgLimit →
      ∃ t, exec .sweepEnd s = .next t ∧ swept t
        ∧ ((8 ≤ live ∨ ∃ e ∈ stay, e.serial = serial ∧ e.state = .sweeping) →
            t.headJob = some j ∧ t.ring w.slot = { g with epochs := stay, changed := true })
        ∧ (g.state = .running → live < 8 → (∀ e ∈ stay, e.serial = serial → e.state ≠ .sweeping) → j.stage = .idle →
          j.done < j.count → ∀ e q, s.reverseLookup j.source ((j.firstSource + j.done) % g.size) = some (e, q) →
            t.ring w.slot = { opened with held := g.held }
              ∧ t.headJob = some { j with
                  state := .running, stage := .read, forcedSequence := some sequence
                  fence := some (match g.liveEpochs.getLast? with | some l => .serial l.serial | none => .noEpoch) }
              ∧ t.jobs.reference = some e
              ∧ (t.jobs.command = some ⟨.read, s.mgmt.setup.first + 256 * q⟩
                  ∨ PortItem.jobCommand .read (s.mgmt.setup.first + 256 * q) ∈ t.sent)))

/-! ### The disk port -/

/-- A timeout of one outstanding command (R124): TIMEOUT-SEEN and RESET-SEEN are set, the count rises by 8, every command is aborted, the
transfer whose command timed out completes with status ERROR and reason TIMEOUT (11) first, and the link is RESETTING; when the rise would pass
255 the count stays at 255, the state is CUTOFF and the link DOWN (R126, R128). That its completion is the first thing sent is the model's choice
(log 11). -/
def Obligations.TimeoutResetsLink : Prop :=
  ∀ (s : State) (o : Owner) (c : Outstanding), s.powered = true → s.transfersOk = true → s.disk.link ≠ .resetting →
    s.disk.healthState ≠ .cutoff → (s.disk.outstanding.filter fun x => x.owner = o) = [c] → c.timeout.isSome = true →
    ∃ t, exec (.commandTimeout [o]) s = .next t ∧ t.disk.outstanding = [] ∧ t.disk.timeoutSeen = true
      ∧ t.disk.resetSeen = true ∧ t.disk.failureSeen = s.disk.failureSeen
      ∧ (s.disk.health + 8 ≤ 255 → t.disk.link = .resetting ∧ t.disk.health = s.disk.health + 8
          ∧ t.disk.healthState ≠ .cutoff)
      ∧ (255 < s.disk.health + 8 → t.disk.link = .down ∧ t.disk.health = 255 ∧ t.disk.healthState = .cutoff)
      ∧ ∀ n u, o = .tag n → s.transfer n = some u → (u.kind = .read → u.delivered < u.count.getD 0) →
          t.transfer n = none ∧ ∃ mark post, t.sent = s.sent ++ PortItem.completion n .error 11
            (if u.kind = .read then u.first.getD 0 + u.delivered else u.first.getD 0) mark :: post

/-- The disk reports ready on the link (R125): the link is UP at the speed negotiated; the end of a LINK-RESTORE sets the count to 0 and
the state to NORMAL and is answered OK (R131); with no job in the queue the transfer at the head of the issue queue is issued first
(R120). That the command changes nothing with the link not RESETTING is the model's choice (log 8). -/
def Obligations.LinkResetEnds : Prop :=
  ∀ (s : State) (speed : LinkSpeed), s.powered = true →
    (s.disk.link = .resetting →
      ∃ t, exec (.diskLinkResetEnd speed) s = .next t ∧ t.disk.link = .up ∧ t.disk.speed = some speed
        ∧ (∀ r, s.mgmt.request = some r → r.wait = .linkRestore →
            t.disk.health = 0 ∧ t.disk.healthState = .normal ∧ t.mgmt.request = none
              ∧ t.mgmt.response = some { kind := r.kind, number := r.number, result := .ok })
        ∧ ((∀ r, s.mgmt.request = some r → r.wait ≠ .linkRestore) →
            t.disk.health = s.disk.health ∧ t.disk.healthState = s.disk.healthState
              ∧ ∀ tag rest u, s.issueQueue = tag :: rest → s.transfer tag = some u → s.jobs.queue = [] →
                  s.jobs.command = none → s.disk.healthState ≠ .cutoff →
                  s.disk.outstanding.length < s.mgmt.setup.depth →
                  ∃ post, t.sent = s.sent ++ PortItem.command tag u.kind u.first u.count :: post))
    ∧ (s.disk.link ≠ .resetting → exec (.diskLinkResetEnd speed) s = .next s)

/-- A disk-link reset that ends with failure, and the loss of a link that is UP, are link losses (R125, R129): the link is DOWN and the
port is in CUTOFF with its count as it was; on entering CUTOFF (R128) no command is outstanding, no disk-bound transfer is left QUEUED,
and LINK-CUTOFF is raised; a waiting LINK-RESTORE is answered LINK-DOWN (R131). -/
def Obligations.LinkLossCutsOff : Prop :=
  ∀ (s : State) (c : Instr), s.powered = true → s.transfersOk = true →
    ((c = .diskLinkResetFail ∧ s.disk.link = .resetting) ∨ (c = .linkLoss ∧ s.disk.link = .up)) →
    ∃ t, exec c s = .next t ∧ t.disk.link = .down ∧ t.disk.healthState = .cutoff ∧ t.disk.health = s.disk.health
      ∧ (s.disk.healthState ≠ .cutoff →
          t.disk.outstanding = [] ∧ (∀ u ∈ t.transfers, u.kind.diskBound = true → u.state ≠ .queued)
            ∧ (t.mgmt.overflowed = true ∨ ∃ x ∈ t.mgmt.notices, x.kind = .linkCutoff ∧ x.subject = none))
      ∧ (c = .diskLinkResetFail → ∀ r, s.mgmt.request = some r → r.wait = .linkRestore →
          t.mgmt.request = none
            ∧ t.mgmt.response = some { kind := r.kind, number := r.number, result := .linkDown })

/-- The disk reports the end of a transfer's command (R122). A success lowers the health count by 1: a WRITE, FLUSH or OTHER, and a READ whose
blocks are all delivered, completes, with its first error or GOOD (R91, R102), and a READ whose blocks are not all delivered becomes ENDING.
A failure raises the count by 8, sets FAILURE-SEEN and completes the transfer; with no first error recorded the reason is DISK-ERROR (10) at
the block the disk reports. Where the disk reports none: for a PROTECTED transfer the first block not yet handed on (R92); for a PASS-THROUGH
one that block too, or block 0 for a command that names no blocks, which is the model's choice (log 17). That the completion is the first
thing sent at the event is the model's choice (log 11). The premise that the tag does not stand in the issue queue follows from `State.issueOk`. -/
def Obligations.CommandEnds : Prop :=
  ∀ (s : State) (n : Nat) (u : Transfer), s.powered = true → s.transfersOk = true → s.isOutstanding (.tag n) = true →
    s.transfer n = some u → n ∉ s.issueQueue →
    let own : Bool → PortItem := fun mark => match u.firstError with
      | none => .completion n .good 0 0 mark
      | some (b, reason) => .completion n .error reason.code b mark
    (∃ t, exec (.commandSuccess (.tag n)) s = .next t ∧ t.disk.health = s.disk.health - 1
      ∧ ((u.kind = .write ∨ u.kind = .flush ∨ (∃ code d, u.kind = .other code d)
            ∨ (u.kind = .read ∧ u.count.getD 0 ≤ u.delivered)) →
          t.transfer n = none ∧ ∃ mark post, t.sent = s.sent ++ own mark :: post)
      ∧ (u.kind = .read → u.delivered < u.count.getD 0 →
          (s.session.state = .idle ∨ (s.atRest = true ∧ (u.state = .active ∨ s.inHeldList n = true))) →
          ∃ v, t.transfer n = some v ∧ v.state = .ending ∧ v.commandEnded = true ∧ v.delivered = u.delivered))
    ∧ ∀ failing, ∃ t, exec (.commandFailure (.tag n) failing) s = .next t ∧ t.disk.failureSeen = true
        ∧ (s.disk.health + 8 ≤ 255 → t.disk.health = s.disk.health + 8)
        ∧ (255 < s.disk.health + 8 → t.disk.health = 255 ∧ t.disk.healthState = .cutoff)
        ∧ t.transfer n = none
        ∧ (u.firstError = none → u.first.isSome = u.count.isSome →
            (failing = none → ∀ k, u.count = some k → u.delivered < k) →
            ∃ mark post, t.sent = s.sent ++ PortItem.completion n .error 10 (match failing with
                | some b => b
                | none => match u.first with
                  | some a => a + u.delivered
                  | none => 0) mark :: post)

/-- The job's commands end. The success of a READ classifies its chunk by the chunk's tag (R139): UNWRITTEN or EXPIRED is lost, an epoch opened at
or after the forced open makes it overtaken, and an older LIVE one a copy: the source reference is released, the chunk epoch kept, the stage
CIPHER, and burst 0 requested, or taken by a free engine (R140, R23). The success of a WRITE counts the chunk copied (R141). The next chunk then
begins (R138), or the job is PAUSED while a pause cause holds (R144), or after the last one leaves the queue and JOB-DONE carries its counts. The
failure of a READ loses the chunk, and of a WRITE ends the job FAILED with DISK-ERROR (R143). -/
def Obligations.JobCommandEnds : Prop :=
  ∀ (s : State) (j : Job), s.powered = true → s.jobsOk = true → s.isOutstanding .job = true → s.headJob = some j →
    j.state = .running →
    let g := s.ring j.source
    let calm := s.atRest = true ∧ s.tablesOk = true ∧ s.countsOk = true ∧ s.disk.healthState ≠ .cutoff
    let finished : State → Nat → Nat → Nat → Prop := fun t copied lost overtaken =>
      (∀ k ∈ t.jobs.queue, k.number ≠ j.number)
        ∧ (t.mgmt.overflowed = true ∨ ∃ x ∈ t.mgmt.notices, x.kind = .jobDone ∧ x.subject = some j.number
            ∧ x.details = .jobDone copied lost overtaken)
    let next : State → Nat → Nat → Nat → Prop := fun t copied lost overtaken =>
      let k : Job := { j with
        copied := copied, lost := lost, overtaken := overtaken, done := j.done + 1, stage := .idle, chunkEpoch := none }
      (j.count = j.done + 1 → finished t copied lost overtaken)
        ∧ (j.done + 1 < j.count → calm →
          (s.mgmt.mode ≠ .run → t.headJob = some { k with state := .paused } ∧ t.jobs.reference = none)
          ∧ (s.mgmt.mode = .run → (s.disk.healthState = .normal ∨ s.disk.healthState = .warning) →
            1 ≤ s.mgmt.setup.bgLimit → ∀ e q,
            s.reverseLookup j.source ((j.firstSource + (j.done + 1)) % g.size) = some (e, q) →
            t.headJob = some { k with stage := .read } ∧ t.jobs.reference = some e
              ∧ (t.jobs.command = some ⟨.read, s.mgmt.setup.first + 256 * q⟩
                  ∨ PortItem.jobCommand .read (s.mgmt.setup.first + 256 * q) ∈ t.sent)))
    (j.stage = .write → ∃ t, exec (.commandSuccess .job) s = .next t ∧ next t (j.copied + 1) j.lost j.overtaken)
    ∧ (j.stage = .read →
      ∃ t, exec (.commandSuccess .job) s = .next t
        ∧ ∀ tag, tag = s.tagAt (g.tagStart + (j.firstSource + j.done) % g.size) →
          (tag = none → next t j.copied (j.lost + 1) j.overtaken)
          ∧ ∀ serial pre e post, tag = some serial → g.epochs = pre ++ e :: post → e.serial = serial →
            (∀ x ∈ pre, x.serial ≠ serial) →
            (e.state = .sweeping → next t j.copied (j.lost + 1) j.overtaken)
            ∧ (e.state = .live → g.state = .running → ∀ forced, j.forcedSequence = some forced →
              ((e.sequence = forced ∨ (∃ x ∈ pre, x.sequence = forced) ∨ ∀ x ∈ g.epochs, x.sequence ≠ forced) →
                next t j.copied j.lost (j.overtaken + 1))
              ∧ ((∃ x ∈ post, x.sequence = forced) → (∀ x ∈ pre ++ [e], x.sequence ≠ forced) → calm →
                let copy :=
                  t.headJob = some { j with stage := .cipher, chunkEpoch := some (serial, e.sequence) }
                    ∧ t.jobs.kept = s.jobs.kept ∧ t.jobs.reference = none
                    ∧ ∀ i, s.jobs.reference = some i → (s.extent i).state = .valid →
                        t.extent i = { s.extent i with inUse := (s.extent i).inUse - 1 }
                (s.engine.burst.isSome = true → copy ∧ t.jobs.burst = some 0 ∧ t.engine = s.engine)
                  ∧ (s.engine.burst = none → ∀ a k, s.keyPair (.epoch j.source serial) = some a →
                      s.keyPair (.slot j.target) = some k →
                      copy ∧ t.jobs.burst = none
                        ∧ t.engine = { s.engine with
                            share := 0
                            burst := some
                              { owner := .job, first := 0, inputs := s.jobs.kept.take 8, composition := .adopt a k
                                tweak := 256 * ((j.firstSource + j.done) % g.size)
                                targetTweak := 256 * (j.firstTarget + j.done), origins := List.replicate 8 .ciphertext
                                cancellable := s.engine.cancels < 3, withdrawn := false } }
                        ∧ ((s.recSlot j.target).state = .opened →
                            (t.recSlot j.target).high = max (s.recSlot j.target).high (j.firstTarget + j.done + 1))))))
    ∧ (j.stage = .write → s.disk.health + 8 ≤ 255 →
      ∃ t, exec (.commandFailure .job none) s = .next t ∧ (∀ k ∈ t.jobs.queue, k.number ≠ j.number)
        ∧ t.disk.failureSeen = true
        ∧ (t.mgmt.overflowed = true ∨ ∃ x ∈ t.mgmt.notices, x.kind = .jobEnded ∧ x.subject = some j.number
            ∧ x.details = .jobEnded .diskError j.done j.copied j.lost j.overtaken))
    ∧ (j.stage = .read → s.disk.health + 8 ≤ 255 → j.count = j.done + 1 →
      ∃ t, exec (.commandFailure .job none) s = .next t ∧ finished t j.copied (j.lost + 1) j.overtaken)

/-! ### Data, bursts and the cipher engine -/

/-- Data moves between the ports in block order (R89, R99, R141). A block of a PASS-THROUGH WRITE or READ waits, unchanged, for hand-on; an OTHER
command's data is relayed and counted at its arrival (the model's choice, log 19). The next waiting block of a READ is delivered on the
controller port, that of a WRITE sent on the disk port, and blocks delivered rises by 1; a READ whose disk command has ended completes at its
last block with its first error or GOOD (R91, R102). The last block of a PASS-THROUGH READ is not delivered before its disk command has ended
(R91), and in a MOVE a block of a chunk above the cursor is not delivered, since the chunk below has not reached its end (R155): a BLOCK_DELIVERY
that names one of these changes nothing (log 8). The job's WRITE sends the blocks of the target chunk. -/
def Obligations.DataMoves : Prop :=
  (∀ (s : State) (n : Nat) (u : Transfer) (data : Block), s.powered = true → s.transfersOk = true →
    s.transfer n = some u →
    let record : Transfer → List Transfer := fun v => s.transfers.map fun t => if t.tag = n then v else t
    (∀ c, ((c = .dataFromController n data ∧ u.kind = .write)
          ∨ (c = .dataFromDisk (.tag n) data ∧ u.kind = .read ∧ s.isOutstanding (.tag n) = true)) →
        u.handling = .passThrough → u.state = .active → u.arrived < u.count.getD 0 → s.atRest = true →
        exec c s = .next
          { s with transfers := record { u with arrived := u.arrived + 1, output := u.output ++ [⟨data, .relayed⟩] } })
    ∧ (∀ code, u.kind = .other code .toDisk → u.state = .active →
        exec (.dataFromController n data) s = .next
          { s with transfers := record { u with delivered := u.delivered + 1 }
                   sent := s.sent ++ [.toDisk (.tag n) data] })
    ∧ (∀ code, u.kind = .other code .fromDisk → s.isOutstanding (.tag n) = true →
        exec (.dataFromDisk (.tag n) data) s = .next
          { s with transfers := record { u with delivered := u.delivered + 1 }
                   sent := s.sent ++ [.delivered n data] })
    ∧ ∀ b rest, u.output = b :: rest →
      let ahead := ∃ m c last cursor, b.origin = .transit m c last ∧ s.session.state ≠ .idle ∧ s.session.slot = some m
        ∧ s.session.mode = some .move ∧ s.session.cursor = some cursor ∧ cursor < c
      let early := u.handling = .passThrough ∧ u.commandEnded = false ∧ u.count.getD 0 ≤ u.delivered + 1
      let moved : Transfer := { u with output := rest, delivered := u.delivered + 1 }
      (u.kind = .write → s.isOutstanding (.tag n) = true →
        exec (.blockToDisk (.tag n)) s = .next
          { s with transfers := record moved, sent := s.sent ++ [.toDisk (.tag n) b.data] })
      ∧ (u.kind = .read → (ahead ∨ early) → exec (.blockDelivery n) s = .next s)
      ∧ (u.kind = .read → ¬ahead → ¬early → (∀ m c, b.origin ≠ .transit m c true) →
          (¬(u.commandEnded = true ∧ u.count.getD 0 ≤ u.delivered + 1) → s.atRest = true →
            exec (.blockDelivery n) s = .next
              { s with transfers := record moved, sent := s.sent ++ [.delivered n b.data] })
          ∧ (u.commandEnded = true → u.count.getD 0 ≤ u.delivered + 1 →
            ∃ t, exec (.blockDelivery n) s = .next t ∧ t.transfer n = none
              ∧ ∃ mark post, t.sent = s.sent ++ PortItem.delivered n b.data
                  :: (match u.firstError with
                    | none => .completion n .good 0 0 mark
                    | some (a, reason) => .completion n .error reason.code a mark) :: post)))
  ∧ ∀ (s : State) (data : Block), s.powered = true → s.jobs.recoded[s.jobs.sent]? = some data →
      (s.disk.outstanding.find? fun c => c.owner = .job).any (fun c => c.stage = some .write) = true →
      exec (.blockToDisk .job) s = .next
        { s with jobs := { s.jobs with sent := s.jobs.sent + 1 }, sent := s.sent ++ [.toDisk .job data] }

/-- The take of a write burst into a recording slot (R93, R95, R4). OPEN: the burst is enciphered under the slot key at tweak 256 c + b, and
the high ordinal rises to c + 1 when it lies below, with the record queued for the store (R23). ERASING: zero blocks, CLOSED. -/
def Obligations.WriteBurstTaken : Prop :=
  ∀ (s : State) (n e p c : Nat) (u : Transfer) (r : BurstRange) (data : Block) (x : Extent),
    s.completesBurst n u r = true → u.kind = .write → r.fragment.entry = some e → x = s.extent e → x.slot < 64 →
    p = (r.first - s.mgmt.setup.first) / 256 → c = x.firstOrdinal + (p - x.base) →
    (∀ k, (s.recSlot x.slot).state = .opened → s.keyPair (.slot x.slot) = some k →
      ∃ t, exec (.dataFromController n data) s = .next t
        ∧ { t with recs := s.recs, store := s.store } = s.burstStarted n u r p
            { owner := .tag n, first := r.first, inputs := u.input ++ [data], composition := .encipher k
              tweak := 256 * c + (r.first - s.mgmt.setup.first) % 256, targetTweak := 0
              origins := List.replicate r.count .ciphertext, cancellable := false, withdrawn := false }
        ∧ (∀ m, m ≠ x.slot → t.recSlot m = s.recSlot m)
        ∧ (c < (s.recSlot x.slot).high → t.recs = s.recs ∧ t.store = s.store)
        ∧ ((s.recSlot x.slot).high ≤ c →
            t.recSlot x.slot = { s.recSlot x.slot with high := c + 1, changed := true, persisting := true }
              ∧ (RecordId.slot x.slot ∈ t.store.queue
                  ∨ ∃ w y, t.store.writer = some w ∧ w.record = .slot x.slot ∧ w.content = .slot y ∧ y.high = c + 1)))
    ∧ ((s.recSlot x.slot).state = .erasing →
        exec (.dataFromController n data) s = .next (s.burstZeroed n u r p .closed))

/-- The take of a write burst into a RUNNING ring (R94, R53 to R56). Without an epoch decision the burst goes under the epoch its chunk's tag
names; a decision with a current epoch younger than L sets the tag to its serial; one without opens an epoch with the next serial, tags the
chunk and derives its key (R54, R78), or, while that serial is still SWEEPING, holds the transfer. -/
def Obligations.RingWriteDecides : Prop :=
  ∀ (s : State) (n e p c i : Nat) (u : Transfer) (r : BurstRange) (data : Block) (x : Extent) (g : RingSlot),
    s.completesBurst n u r = true → u.kind = .write → r.fragment.entry = some e → x = s.extent e → 64 ≤ x.slot →
    p = (r.first - s.mgmt.setup.first) / 256 → c = x.firstOrdinal + (p - x.base) →
    g = s.ring x.slot → i = g.tagStart + c → g.state = .running →
    let burst : XtsPair → Burst := fun k =>
      { owner := .tag n, first := r.first, inputs := u.input ++ [data], composition := .encipher k
        tweak := 256 * c + (r.first - s.mgmt.setup.first) % 256, targetTweak := 0
        origins := List.replicate r.count .ciphertext, cancellable := false, withdrawn := false }
    (u.lastChunk = some p → ∀ serial k, s.tagAt i = some serial → g.isLive serial = true →
        s.keyPair (.epoch x.slot serial) = some k →
        exec (.dataFromController n data) s = .next (s.burstStarted n u r p (burst k)))
    ∧ ((u.lastChunk ≠ some p ∨ ∀ serial, s.tagAt i = some serial → g.isLive serial = false) →
        (∀ cur k, g.liveEpochs.getLast? = some cur → s.clock.minutes < cur.openMinute + g.epochLength →
            s.keyPair (.epoch x.slot cur.serial) = some k →
            ∃ t, exec (.dataFromController n data) s = .next t
              ∧ (∀ j, t.tagAt j = if j = i then some cur.serial else s.tagAt j)
              ∧ { t with tags := s.tags } = s.burstStarted n u r p (burst k))
        ∧ ((∀ cur, g.liveEpochs.getLast? = some cur → cur.openMinute + g.epochLength ≤ s.clock.minutes) →
            ∀ serial sequence, serial = (match g.lastSerial with | none => 0 | some l => (l + 1) % 16) →
            sequence = (g.sequence + 1) % 4294967296 →
            (g.liveEpochs.length < 8 → g.isSweeping serial = false → ∀ k, s.keyEntry (.slot x.slot) = some k →
              ∃ t, exec (.dataFromController n data) s = .next t
                ∧ (∀ j, t.tagAt j = if j = i then some serial else s.tagAt j)
                ∧ t.ring x.slot =
                    { g with epochs := g.epochs ++ [⟨serial, sequence, s.clock.minutes, .live⟩]
                             lastSerial := some serial, sequence := sequence, changed := true }
                ∧ (∀ m, m ≠ x.slot → t.ring m = s.ring m)
                ∧ (∀ o, t.keyPair o =
                    if o = .epoch x.slot serial then some (expandPair (deriveEpochKey k.source sequence s.clock.minutes))
                    else s.keyPair o)
                ∧ { t with tags := s.tags, rings := s.rings, keys := s.keys } =
                    s.burstStarted n u r p (burst (expandPair (deriveEpochKey k.source sequence s.clock.minutes))))
            ∧ (g.liveEpochs.length < 8 → g.isSweeping serial = true →
              ∃ t, exec (.dataFromController n data) s = .next t
                ∧ t.ring x.slot = { g with held := g.held ++ [(n, serial)] } ∧ (∀ m, m ≠ x.slot → t.ring m = s.ring m)
                ∧ { t with rings := s.rings } =
                    { s with
                      engine := { s.engine with position := n }
                      transfers := s.transfers.map fun v =>
                        if v.tag = n then
                          { u with arrived := u.arrived + 1, input := u.input ++ [data], state := .held, ready := false }
                        else v })
            ∧ ∀ old rest, g.liveEpochs = old :: rest → 7 ≤ rest.length →
              ∃ t, exec (.dataFromController n data) s = .next t ∧ t.keyEntry (.epoch x.slot old.serial) = none
                ∧ (t.ring x.slot).isSweeping old.serial = true))

/-- The take of a read burst outside an export session (R96, R60, R97): what the unassigned fragment, the ring chunk's tag and the state,
floor, high ordinal and length of the recording slot make of it. -/
def Obligations.ReadBurstDecided : Prop :=
  ∀ (s : State) (n p : Nat) (u : Transfer) (r : BurstRange) (data : Block),
    s.completesBurst n u r = true → u.kind = .read → s.isOutstanding (.tag n) = true →
    p = (r.first - s.mgmt.setup.first) / 256 →
    let burst : XtsPair → Origin → Nat → Burst := fun k o c =>
      { owner := .tag n, first := r.first, inputs := u.input ++ [data], composition := .decipher k
        tweak := 256 * c + (r.first - s.mgmt.setup.first) % 256, targetTweak := 0
        origins := List.replicate r.count o, cancellable := false, withdrawn := false }
    let zeroed : Reason → Prop := fun reason =>
      exec (.dataFromDisk (.tag n) data) s = .next (s.burstZeroed n u r p reason)
    let started : Burst → Prop := fun b => exec (.dataFromDisk (.tag n) data) s = .next (s.burstStarted n u r p b)
    (r.fragment.entry = none → zeroed .unassigned)
    ∧ ∀ e x c, r.fragment.entry = some e → x = s.extent e → c = x.firstOrdinal + (p - x.base) →
      (64 ≤ x.slot → ∀ g tag, g = s.ring x.slot → tag = s.tagAt (g.tagStart + c) →
        (g.state = .erasing → zeroed .closed)
        ∧ (g.state = .running →
          (tag = none → zeroed .unwritten)
          ∧ ∀ serial, tag = some serial →
            (g.isLive serial = false → zeroed .expired)
            ∧ (g.isLive serial = true → ∀ k, s.keyPair (.epoch x.slot serial) = some k →
                started (burst k (.epoch x.slot serial) c))))
      ∧ (x.slot < 64 → ∀ y, y = s.recSlot x.slot →
        (y.state = .erasing → zeroed .closed)
        ∧ ((y.state = .opened ∨ y.state = .finished) → (s.session.state = .idle ∨ s.session.slot ≠ some x.slot) →
          (c < y.floor → zeroed .moved)
          ∧ (y.floor ≤ c →
            ((y.state = .opened ∧ y.high ≤ c) ∨ (y.state = .finished ∧ y.length ≤ c) → zeroed .unwritten)
            ∧ ((y.state = .opened → c < y.high) → (y.state = .finished → c < y.length) →
                ∀ k, s.keyPair (.slot x.slot) = some k → started (burst k (.plain x.slot c) c)))))

/-- The take of a read burst of the slot of a session, ACTIVE or ENDING (R96, R152, R153, R154): COPY and MOVE, the floor rule, the hold with its floor demand, and
advance pending at block-in-chunk 255 of the cursor chunk. -/
def Obligations.ExportReadDecided : Prop :=
  ∀ (s : State) (n e p c bic : Nat) (u : Transfer) (r : BurstRange) (data : Block) (x : Extent) (y : RecSlot),
    s.completesBurst n u r = true → u.kind = .read → s.isOutstanding (.tag n) = true → r.fragment.entry = some e →
    x = s.extent e → x.slot < 64 → y = s.recSlot x.slot → p = (r.first - s.mgmt.setup.first) / 256 →
    bic = (r.first - s.mgmt.setup.first) % 256 → c = x.firstOrdinal + (p - x.base) →
    (s.session.state = .active ∨ s.session.state = .ending) → s.session.slot = some x.slot →
    let zeroed : Reason → Prop := fun reason =>
      exec (.dataFromDisk (.tag n) data) s = .next (s.burstZeroed n u r p reason)
    let burst : XtsPair → XtsPair → Burst := fun k k' =>
      { owner := .tag n, first := r.first, inputs := u.input ++ [data], composition := .transit k k'
        tweak := 256 * c + bic, targetTweak := 0
        origins := (List.range r.count).map fun i => .transit x.slot c (bic + i = 255)
        cancellable := false, withdrawn := false }
    (s.session.mode = some .copy → y.state = .finished →
      (c < y.floor → zeroed .moved)
      ∧ (y.floor ≤ c → y.length ≤ c → zeroed .unwritten)
      ∧ (y.floor ≤ c → c < y.length → ∀ k k', s.keyPair (.slot x.slot) = some k → s.keyPair .transit = some k' →
          exec (.dataFromDisk (.tag n) data) s = .next (s.burstStarted n u r p (burst k k'))))
    ∧ (s.session.mode = some .move → y.state = .moving → ∀ cursor, s.session.cursor = some cursor →
      (c < cursor → zeroed .moved)
      ∧ (cursor ≤ c → y.length ≤ c → zeroed .outOfOrder)
      ∧ (cursor < c → c < y.length → ¬(c = cursor + 1 ∧ s.session.advancePending = true) → zeroed .outOfOrder)
      ∧ ((c = cursor ∨ (c = cursor + 1 ∧ s.session.advancePending = true)) → c < y.length →
        (c < y.persistedFloor → ∀ k k', s.keyPair (.slot x.slot) = some k → s.keyPair .transit = some k' →
          exec (.dataFromDisk (.tag n) data) s = .next
            { s.burstStarted n u r p (burst k k') with
              session := { s.session with
                advancePending := s.session.advancePending || (c = cursor && bic + r.count = 256) } })
        ∧ (y.persistedFloor ≤ c →
          ∃ t, exec (.dataFromDisk (.tag n) data) s = .next t ∧ t.engine.burst = none
            ∧ t.session = { s.session with held := s.session.held ++ [(n, c)] }
            ∧ (∃ v, t.transfer n = some v ∧ v.state = .held ∧ v.input = u.input ++ [data] ∧ v.covered = u.covered)
            ∧ (c < y.floor → t.recs = s.recs ∧ t.store = s.store)
            ∧ (y.floor ≤ c →
                t.recSlot x.slot = { y with floor := min y.length (c + 64), changed := true, persisting := true }
                  ∧ (t.store.queue.head? = some (.slot x.slot)
                      ∨ ∃ w z, t.store.writer = some w ∧ w.record = .slot x.slot ∧ w.content = .slot z
                          ∧ z.floor = min y.length (c + 64))
                  ∧ ∀ v ∈ t.transfers, ∀ b ∈ v.output, ∀ a, b.origin = .plain x.slot a → min y.length (c + 64) ≤ a))))

/-- The delivery of block-in-chunk 255 of the cursor chunk of a MOVE, which only a PROTECTED READ carries (R154, R156): the cursor and chunks delivered rise by 1; at the slot's
length the move completes: the session is NONE with end cause DONE, its key and the slot's are destroyed, the slot is ERASING with its record
demanded, MOVE-DONE is raised. -/
def Obligations.MoveDelivered : Prop :=
  ∀ (s : State) (n m c : Nat) (u : Transfer) (b : OutBlock) (rest : List OutBlock),
    s.powered = true → s.transfersOk = true → s.transfer n = some u → u.kind = .read → u.output = b :: rest →
    u.handling = .guarded → b.origin = .transit m c true → m < 64 → s.session.state = .active → s.session.slot = some m →
    s.session.mode = some .move → s.session.cursor = some c → (s.recSlot m).state = .moving →
    ∃ t, exec (.blockDelivery n) s = .next t
      ∧ (∃ post, t.sent = s.sent ++ PortItem.delivered n b.data :: post)
      ∧ t.session.cursor = some (c + 1) ∧ t.session.chunksDelivered = min 4294967295 (s.session.chunksDelivered + 1)
      ∧ (c + 1 < (s.recSlot m).length → t.session.state = .active ∧ (t.recSlot m).state = .moving)
      ∧ ((s.recSlot m).length ≤ c + 1 →
          t.session.state = .idle ∧ t.session.endCause = some .completed ∧ t.session.keyPresent = false
            ∧ t.keyEntry .transit = none ∧ t.keyEntry (.slot m) = none ∧ (t.recSlot m).state = .erasing
            ∧ (RecordId.slot m ∈ t.store.queue ∨ t.store.writer.any (fun w => w.record = .slot m))
            ∧ (t.mgmt.overflowed = true ∨ ∃ z ∈ t.mgmt.notices, z.kind = .moveDone ∧ z.subject = some m))

/-- The end of a burst of a transfer (R111, R81, R117): the engine is free and the burst's output waits for hand-on, block i under tweak
t + i; a withdrawn burst gives zero blocks. The cipher is that of the standards the rules name (log 1). -/
def Obligations.CipheringEnds : Prop :=
  ∀ (s : State) (b : Burst) (n : Nat) (u : Transfer), s.powered = true → s.transfersOk = true →
    s.engine.burst = some b → b.owner = .tag n → s.transfer n = some u →
    let after : List OutBlock → State := fun out =>
      { s with
        engine := { s.engine with burst := none }
        transfers := s.transfers.map fun t => if t.tag = n then { u with output := u.output ++ out } else t }
    (after []).atRest = true →
    (b.withdrawn = true →
      exec .cipheringEnd s = .next (after (List.replicate b.inputs.length ⟨zeroBlock, .zero⟩)))
    ∧ (b.withdrawn = false →
      (∀ k, b.composition = .encipher k → exec .cipheringEnd s = .next (after (List.zipWith OutBlock.mk
          (b.inputs.mapIdx fun i q => encipherBlock k (b.tweak + i) q) b.origins)))
      ∧ (∀ k, b.composition = .decipher k → exec .cipheringEnd s = .next (after (List.zipWith OutBlock.mk
          (b.inputs.mapIdx fun i q => decipherBlock k (b.tweak + i) q) b.origins)))
      ∧ (∀ k k', b.composition = .transit k k' → exec .cipheringEnd s = .next (after (List.zipWith OutBlock.mk
          (b.inputs.mapIdx fun i q => encipherBlock k' (b.tweak + i) (decipherBlock k (b.tweak + i) q)) b.origins))))

/-- The end of an adoption burst (R111, R140, R115): its blocks, deciphered under the epoch key and enciphered under the target's slot key, go
to the target chunk buffer, and the next of the 32 bursts is taken with the cancel count at 0; after burst 31 the WRITE of the chunk is
requested, or issued (R141). A burst has an origin for each of its blocks (`Engine.countsOk`). -/
def Obligations.AdoptionBurstEnds : Prop :=
  ∀ (s : State) (b : Burst) (j : Job) (a k : XtsPair), s.powered = true → s.atRest = true →
    s.engine.burst = some b → b.owner = .job → b.composition = .adopt a k → b.withdrawn = false →
    b.inputs.length ≤ b.origins.length → s.headJob = some j → j.state = .running → j.stage = .cipher →
    ∃ t, exec .cipheringEnd s = .next t ∧ t.engine.cancels = 0
      ∧ (b.first < 31 → ∀ serial sequence a' k', j.chunkEpoch = some (serial, sequence) →
          (∃ e ∈ (s.ring j.source).epochs, e.serial = serial ∧ e.sequence = sequence ∧ e.state = .live) →
          s.keyPair (.epoch j.source serial) = some a' → s.keyPair (.slot j.target) = some k' →
          t.jobs.recoded = s.jobs.recoded ++ (b.inputs.mapIdx fun i q =>
              encipherBlock k (b.targetTweak + i) (decipherBlock a (b.tweak + i) q))
            ∧ t.engine = { s.engine with
                share := 0, cancels := 0
                burst := some
                  { owner := .job, first := b.first + 1, inputs := (s.jobs.kept.drop (8 * (b.first + 1))).take 8
                    composition := .adopt a' k'
                    tweak := 256 * ((j.firstSource + j.done) % (s.ring j.source).size) + 8 * (b.first + 1)
                    targetTweak := 256 * (j.firstTarget + j.done) + 8 * (b.first + 1)
                    origins := List.replicate 8 .ciphertext, cancellable := true, withdrawn := false } })
      ∧ (31 ≤ b.first → ∀ e q, s.reverseLookup j.target (j.firstTarget + j.done) = some (e, q) →
          t.jobs.recoded = s.jobs.recoded ++ (b.inputs.mapIdx fun i q =>
              encipherBlock k (b.targetTweak + i) (decipherBlock a (b.tweak + i) q))
            ∧ t.engine.burst = none ∧ t.jobs.reference = some e ∧ t.headJob = some { j with stage := .write }
            ∧ (t.jobs.command = some ⟨.write, s.mgmt.setup.first + 256 * q⟩
                ∨ PortItem.jobCommand .write (s.mgmt.setup.first + 256 * q) ∈ t.sent))

/-! ### The store, the controller port -/

/-- The end of a store write of a recording slot's record (R38, R31, R33, R25, R26, R29): the stored record holds the content taken, the persisted
floor takes the floor the slot held when the write began, also at an erasure write, whose stored record reads EMPTY (the reading of log 22),
persisting follows the queue, a waiting SLOT-OPEN or SLOT-FINISH is answered (a SLOT-FINISH at a write that carries an erasure too, which is
the model's choice, log 44), an erasure written lets the slot become EMPTY, and the writer takes
the next record of the queue with its content as it stands. The widths of the responses' fields are read from R176 (log 14). -/
def Obligations.StoreWriteEnds : Prop :=
  ∀ (s : State) (n floor : Nat) (r : StoredRec) (erasure answers : Bool), s.powered = true → n ≤ 63 →
    s.store.writer =
      some { record := .slot n, content := .slot r, erasure := erasure, answers := answers, floor := floor } →
    ∃ t, exec .storeWriteEnd s = .next t
      ∧ t.storedRec n = r ∧ (∀ m, m ≠ n → t.storedRec m = s.storedRec m) ∧ t.store.time = s.store.time
      ∧ (s.session.state ≠ .idle → s.session.slot = some n → ∀ h ∈ t.session.held, floor ≤ h.2)
      ∧ (s.atRest = true → (s.session.state = .idle ∨ s.session.slot ≠ some n) →
          let written : RecSlot := { s.recSlot n with
            persistedFloor := floor, persisting := s.store.queue.contains (.slot n) }
          (erasure = false → t.recSlot n = written)
          ∧ (erasure = true → (s.recSlot n).state = .erasing →
              (s.named n = false → t.recSlot n = { state := .empty, persisting := s.store.queue.contains (.slot n) })
              ∧ (s.named n = true → t.recSlot n = { written with erased := true }))
          ∧ (∀ m, m ≠ n → t.recSlot m = s.recSlot m)
          ∧ t.store.queue = s.store.queue.tail ∧ t.store.writer.map (·.record) = s.store.queue.head?
          ∧ (∀ m w, t.store.writer = some w → w.record = .slot m →
              w.content = .slot (storedOf (t.recSlot m)) ∧ w.floor = (t.recSlot m).floor)
          ∧ (∀ q, s.mgmt.request = some q → answers = true →
              (q.wait = .slotOpen n → t.mgmt.request = none
                ∧ t.mgmt.response = some { kind := q.kind, number := q.number, result := .ok, body := le 1 n })
              ∧ ∀ length, q.wait = .finishWrite n length → t.mgmt.request = none
                ∧ t.mgmt.response = some { kind := q.kind, number := q.number, result := .ok, body := le 3 length })
          ∧ ∀ q, s.mgmt.request = some q → q.wait = .drop n → erasure = true → (s.recSlot n).state = .erasing →
              s.named n = false → t.mgmt.request = none
                ∧ t.mgmt.response = some { kind := q.kind, number := q.number, result := .ok })

/-- The end of a time record write (R38, R68, R74): the record and the persisted minute hold the value taken; a CLOCK-ADVANCE that waited on it
raises the minute count to its target, with the expiries that brings, and is answered OK with the count, its width read from R176 (log 14). -/
def Obligations.TimeWriteEnds : Prop :=
  ∀ (s : State) (v : Nat) (answers : Bool), s.powered = true →
    s.store.writer = some { record := .time, content := .time v, erasure := false, answers := answers, floor := 0 } →
    ∃ t, exec .storeWriteEnd s = .next t ∧ t.store.time = { damaged := false, minutes := v }
      ∧ t.store.records = s.store.records ∧ t.clock.persisted = some v ∧ t.clock.ticks = s.clock.ticks
      ∧ (answers = false → t.clock = { s.clock with persisted := some v })
      ∧ (answers = true → ∀ q target, s.mgmt.request = some q → q.wait = .clockAdvance → s.clock.target = some target →
          t.clock.minutes = max s.clock.minutes target ∧ t.clock.target = none ∧ t.mgmt.request = none
            ∧ t.mgmt.response = some { kind := q.kind, number := q.number, result := .ok
                                       body := le 4 (max s.clock.minutes target) }
            ∧ (∀ n, 64 ≤ n → n ≤ 67 → (s.ring n).state = .running → ∀ e ∈ (s.ring n).epochs, e.state = .live →
                e.openMinute + (s.ring n).window ≤ t.clock.minutes → t.keyEntry (.epoch n e.serial) = none)
            ∧ (s.mgmt.loading = .finished → ∀ n x, n ≤ 63 → (t.recSlot n).expiry = some x →
                ((t.recSlot n).state = .opened ∨ (t.recSlot n).state = .finished ∨ (t.recSlot n).state = .moving) →
                t.clock.minutes < x))

/-- A controller-link reset (R104): every record is dropped without a completion, the issue queue is empty, no burst of a transfer is left in the
engine, every outstanding disk command is aborted unscored and a disk-link reset is made, unless the port is in CUTOFF (R125, R132); the clock,
the setup values and the session's cursor stay. Each dropped transfer's references are released, which may empty a RETIRING entry (R11), and the
writes in flight it raised fall, which may complete a pending finish (R42, R22, R27). RESET-SEEN is set in every case (the model's choice in
CUTOFF and at a joined reset, log 21). -/
def Obligations.ControllerLinkReset : Prop :=
  ∀ (s : State) (speed : LinkSpeed), s.powered = true → s.transfersOk = true →
    ∃ t, exec (.controllerLinkReset speed) s = .next t ∧ t.transfers = [] ∧ t.issueQueue = [] ∧ t.sent = s.sent
      ∧ t.controllerSpeed = speed ∧ (∀ b, t.engine.burst = some b → b.owner = .job)
      ∧ t.disk.resetSeen = true ∧ t.disk.health = s.disk.health ∧ t.disk.healthState = s.disk.healthState
      ∧ (s.disk.healthState ≠ .cutoff → t.disk.link = .resetting
          ∧ (s.disk.link ≠ .resetting → t.disk.outstanding = [] ∧ t.disk.resetTicks = 0))
      ∧ t.clock = s.clock ∧ t.mgmt.setup = s.mgmt.setup ∧ t.session.cursor = s.session.cursor
      ∧ t.session.slot = s.session.slot
      ∧ (s.tablesOk = true → s.jobs.queue = [] →
        (∀ e k, k = (s.transfers.flatMap fun u => u.fragments.filter fun f => f.entry = some e).length →
            t.extent e =
              if k = 0 then s.extent e
              else if (s.extent e).state = .retiring ∧ (s.extent e).inUse ≤ k then {}
              else { s.extent e with inUse := (s.extent e).inUse - k })
        ∧ ∀ n k, k = ((s.transfers.flatMap Transfer.writeSlots).filter fun m => m = n).length →
          (s.recSlot n).state = .opened → (t.recSlot n).inFlight = (s.recSlot n).inFlight - k
            ∧ (1 ≤ k → (s.recSlot n).inFlight ≤ k → (s.recSlot n).finishPending = true →
                (t.recSlot n).state = .finished ∧ (t.recSlot n).length = (s.recSlot n).high
                  ∧ (t.recSlot n).finishPending = false)
            ∧ ((k < (s.recSlot n).inFlight ∨ (s.recSlot n).finishPending = false) → t.recSlot n = { s.recSlot n with
                inFlight := (s.recSlot n).inFlight - k }))

/-- Refusals at the arrival of a command (R87): TAG-BUSY (14), CUTOFF (13), and in RUN the SPAN (3), SPLIT (4), UNASSIGNED (1) and WRITE-LOCKED (2)
of a READ or WRITE that touches the partition, in this order. A refused command takes no record: only its completion goes out, with status
ERROR, the reason's code and the block. -/
def Obligations.PortRefusals : Prop :=
  ∀ (s : State) (tag first k : Nat), s.powered = true →
    let refused : Instr → Nat → Nat → Prop := fun c reason block =>
      exec c s = .next { s with sent := s.sent ++ [.completion tag .error reason block (!s.mgmt.notices.isEmpty)] }
    let named : Option (Nat × Nat) → Nat := fun blocks => (blocks.map fun b => b.1).getD 0
    ((s.transfer tag).isSome = true →
      refused (.read tag first k) 14 first ∧ refused (.write tag first k) 14 first
        ∧ refused (.flush tag) 14 0 ∧ refused (.mreq tag k) 14 0 ∧ refused (.mrsp tag k) 14 0
        ∧ ∀ code d blocks, code ≠ 0x8B → code ≠ 0x8C → refused (.other tag code d blocks) 14 (named blocks))
    ∧ (s.transfer tag = none → s.disk.healthState = .cutoff →
      refused (.read tag first k) 13 first ∧ refused (.write tag first k) 13 first
        ∧ refused (.flush tag) 13 0
        ∧ ∀ code d blocks, code ≠ 0x8B → code ≠ 0x8C → refused (.other tag code d blocks) 13 (named blocks))
    ∧ (s.transfer tag = none → s.disk.healthState ≠ .cutoff → s.mgmt.mode = .run →
      ∀ count p q, count = (if k = 0 then 65536 else k) → p = s.mgmt.setup.first → q = p + 256 * s.mgmt.setup.length →
        p < q → first < q → p < first + count →
        (first < p → refused (.read tag first k) 3 p ∧ refused (.write tag first k) 3 p)
        ∧ (p ≤ first → q < first + count → refused (.read tag first k) 3 q ∧ refused (.write tag first k) 3 q)
        ∧ (p ≤ first → first + count ≤ q → ∀ fs, fs = s.fragmentsOf first count →
          (∀ f, fs[16]? = some f → refused (.read tag first k) 4 f.first ∧ refused (.write tag first k) 4 f.first)
          ∧ (fs.length ≤ 16 →
            (∀ f, fs.find? (fun g => g.entry.isNone) = some f → refused (.write tag first k) 1 f.first)
            ∧ ((∀ g ∈ fs, g.entry.isSome = true) → ∀ pre f post e, fs = pre ++ f :: post → f.entry = some e →
                s.acceptsWrites (s.extent e).slot = false →
                (∀ g ∈ pre, ∀ e, g.entry = some e → s.acceptsWrites (s.extent e).slot = true) →
                refused (.write tag first k) 2 f.first))))

/-- The fragment list of a transfer inside the partition (R7): its fragments follow one another from the first block to the last, each block's
chunk matches the entry of its fragment, and neighbouring fragments differ in their entry. -/
def Obligations.FragmentsCoverTransfer : Prop :=
  ∀ (s : State) (first count : Nat), 1 ≤ count → s.mgmt.setup.first ≤ first →
    ((s.fragmentsOf first count).map fun f => (List.range f.count).map fun i => (f.first + i, f.entry)).flatten
        = (List.range count).map (fun i => (first + i, s.matchChunk ((first + i - s.mgmt.setup.first) / 256)))
      ∧ (∀ f ∈ s.fragmentsOf first count, 1 ≤ f.count)
      ∧ ∀ pre f g post, s.fragmentsOf first count = pre ++ f :: g :: post → f.entry ≠ g.entry

/-- The admission of a PASS-THROUGH command (R86, R88, R101, R120): a READ or WRITE outside RUN or not touching the partition, a FLUSH with its
wait set, an OTHER. At a part at rest, in any mode, it is issued at once when the port may issue, and joins the tail of the issue queue otherwise;
a FLUSH whose wait set is not empty, and in DRAINING a READ or WRITE touching the partition (R169), is held back. -/
def Obligations.PassThroughAdmitted : Prop :=
  ∀ (s : State) (tag : Nat), s.powered = true → s.transfersOk = true → s.transfer tag = none →
    s.disk.healthState ≠ .cutoff →
    let outside : Nat → Nat → Prop := fun first count =>
      s.mgmt.setup.length = 0 ∨ s.mgmt.setup.first + 256 * s.mgmt.setup.length ≤ first
        ∨ first + count ≤ s.mgmt.setup.first
    let record : TransferKind → Option Nat → Option Nat → Transfer := fun kind first count =>
      { tag := tag, kind := kind, handling := .passThrough, first := first, count := count, state := .queued }
    let kept : Instr → Transfer → Prop := fun c t => exec c s = .next { s with transfers := s.transfers ++ [t] }
    let admitted : Instr → Transfer → Prop := fun c t =>
      (s.mayIssue = true → exec c s = .next
        { s with
          transfers := s.transfers ++ [{ t with state := .active }]
          disk := { s.disk with outstanding := s.disk.outstanding ++ [⟨.tag tag, none,
            if s.mgmt.setup.timeout = 0 then none else some s.mgmt.setup.timeout⟩] }
          sent := s.sent ++ [.command tag t.kind t.first t.count] })
      ∧ (s.mayIssue = false → exec c s = .next
          { s with transfers := s.transfers ++ [t], issueQueue := s.issueQueue ++ [tag] })
    (s.atRest = true →
      (∀ first k count, count = (if k = 0 then 65536 else k) →
        ((s.mgmt.mode = .starting ∨ s.mgmt.mode = .config ∨ outside first count) →
          admitted (.read tag first k) (record .read (some first) (some count))
            ∧ admitted (.write tag first k) (record .write (some first) (some count)))
        ∧ (s.mgmt.mode = .draining → ¬outside first count →
          kept (.read tag first k) { record .read (some first) (some count) with drainHeld := true }
            ∧ kept (.write tag first k) { record .write (some first) (some count) with drainHeld := true }))
      ∧ ((∀ u ∈ s.transfers, u.kind ≠ .write) → admitted (.flush tag) (record .flush none none))
      ∧ ((∃ u ∈ s.transfers, u.kind = .write) → kept (.flush tag)
          { record .flush none none with waitSet := (s.transfers.filter fun u => u.kind = .write).map (·.tag) })
      ∧ ∀ code d, code ≠ 0x8B → code ≠ 0x8C → admitted (.other tag code d none) (record (.other code d) none none)
          ∧ ∀ first k, admitted (.other tag code d (some (first, k)))
              (record (.other code d) (some first) (some (if k = 0 then 65536 else k))))
    ∧ (s.mgmt.mode = .draining → (∃ u ∈ s.transfers, u.handling = .guarded ∧ u.state ≠ .queued) →
        ∀ first k count, count = (if k = 0 then 65536 else k) → ¬outside first count →
        ∀ c kind, (c = .read tag first k ∧ kind = .read) ∨ (c = .write tag first k ∧ kind = .write) →
        ∃ t, exec c s = .next t ∧ tag ∉ t.issueQueue ∧ t.mgmt.mode = .draining
          ∧ t.transfer tag = some { record kind (some first) (some count) with drainHeld := true })

/-- The admission of a PROTECTED READ or WRITE in RUN (R86, R87, R88, R9, R22): its record keeps the fragment list, one reference is taken for each
fragment's entry, and a WRITE raises the writes in flight of each recording slot it writes by 1. It is issued when the port may issue, and joins
the tail of the issue queue otherwise; a READ with a fragment of the slot of an ENDING session joins the session's held-back list (R157). -/
def Obligations.ProtectedAdmitted : Prop :=
  ∀ (s : State) (tag first k count : Nat) (c : Instr) (kind : TransferKind), s.powered = true → s.transfersOk = true →
    s.tablesOk = true → s.transfer tag = none → s.disk.healthState ≠ .cutoff → s.mgmt.mode = .run → s.atRest = true →
    count = (if k = 0 then 65536 else k) → s.mgmt.setup.first ≤ first →
    first + count ≤ s.mgmt.setup.first + 256 * s.mgmt.setup.length → (s.fragmentsOf first count).length ≤ 16 →
    ((c = .read tag first k ∧ kind = .read)
      ∨ (c = .write tag first k ∧ kind = .write ∧ ∀ f ∈ s.fragmentsOf first count, ∃ e, f.entry = some e
          ∧ s.acceptsWrites (s.extent e).slot = true)) →
    let names : Nat → Prop := fun n => ∃ f ∈ s.fragmentsOf first count, ∃ e, f.entry = some e ∧ (s.extent e).slot = n
    let back := kind = .read ∧ s.session.state = .ending ∧ ∃ n, s.session.slot = some n ∧ names n
    ∃ t v, exec c s = .next t ∧ t.transfer tag = some v
      ∧ { v with writeSlots := [], state := .queued } =
          { tag := tag, kind := kind, handling := .guarded, first := some first, count := some count
            fragments := s.fragmentsOf first count, state := .queued }
      ∧ (∀ e, t.extent e = { s.extent e with
          inUse := (s.extent e).inUse + ((s.fragmentsOf first count).filter fun f => f.entry = some e).length })
      ∧ (∀ n, t.recSlot n = { s.recSlot n with
          inFlight := (s.recSlot n).inFlight + if kind = .write ∧ n < 64 ∧ ∃ f ∈ s.fragmentsOf first count, ∃ e,
              f.entry = some e ∧ (s.extent e).slot = n then 1 else 0 })
      ∧ (∀ u ∈ s.transfers, u ∈ t.transfers)
      ∧ (back → v.state = .queued ∧ t.sent = s.sent ∧ t.issueQueue = s.issueQueue ∧ t.disk = s.disk
          ∧ t.session = { s.session with heldBack := s.session.heldBack ++ [tag] })
      ∧ (¬back → t.session = s.session
          ∧ (s.mayIssue = true → v.state = .active
              ∧ t.sent = s.sent ++ [.command tag kind (some first) (some count)] ∧ t.issueQueue = s.issueQueue
              ∧ ∃ w, t.disk.outstanding = s.disk.outstanding ++ [⟨.tag tag, none, w⟩])
          ∧ (s.mayIssue = false → v.state = .queued
              ∧ t.sent = s.sent ∧ t.issueQueue = s.issueQueue ++ [tag] ∧ t.disk = s.disk))

/-! ### The management exchange -/

/-- MREQ and MRSP at their arrival with an idle tag (R162): NOT-READY in STARTING, MGMT-FORM with a count field other than 1, MGMT-BUSY for an MREQ
while a request is in progress or another MREQ is in the table; else admitted with handling MANAGEMENT in state ACTIVE, an MRSP with the copy of
the response it delivers. Nothing else changes, whatever the disk port's health. Command code 8Bh is an MREQ and 8Ch an MRSP, whatever the block
address; a refusal carries status ERROR, block 0 and the reason's code: NOT-READY 17, MGMT-FORM 16, MGMT-BUSY 15 (R177). -/
def Obligations.ManagementAdmission : Prop :=
  ∀ (s : State) (tag k : Nat), s.powered = true → s.transfer tag = none →
    let refused : Instr → Nat → Prop := fun c reason =>
      exec c s = .next { s with sent := s.sent ++ [.completion tag .error reason 0 (!s.mgmt.notices.isEmpty)] }
    (∀ d block, exec (.other tag 0x8B d (some (block, k))) s = exec (.mreq tag k) s
      ∧ exec (.other tag 0x8C d (some (block, k))) s = exec (.mrsp tag k) s)
    ∧ (s.mgmt.mode = .starting → refused (.mreq tag k) 17 ∧ refused (.mrsp tag k) 17)
    ∧ (s.mgmt.mode ≠ .starting →
      (k ≠ 1 → refused (.mreq tag k) 16 ∧ refused (.mrsp tag k) 16)
      ∧ ((s.mgmt.request.isSome = true ∨ ∃ u ∈ s.transfers, u.kind = .mreq) → refused (.mreq tag 1) 15)
      ∧ (s.mgmt.request = none → (∀ u ∈ s.transfers, u.kind ≠ .mreq) →
          exec (.mreq tag 1) s = .next { s with transfers := s.transfers ++
            [{ tag := tag, kind := .mreq, handling := .management, state := .active }] })
      ∧ ∃ copy, exec (.mrsp tag 1) s = .next { s with transfers := s.transfers ++
          [{ tag := tag, kind := .mrsp, handling := .management, state := .active, output := [⟨copy, .relayed⟩] }] })

/-- An MRSP copies the response block as it stands at its admission, or a block of kind NONE, number 0 and NOT-FOUND with every other byte 0 when
none exists; it completes GOOD at the delivery of the copy and changes no state of the management unit (R164). -/
def Obligations.MrspDeliversCopy : Prop :=
  ∀ (s : State) (tag : Nat), s.powered = true →
    (s.transfer tag = none → s.mgmt.mode ≠ .starting →
      exec (.mrsp tag 1) s = .next { s with transfers := s.transfers ++
          [{ tag := tag, kind := .mrsp, handling := .management, state := .active
             output := [⟨responseBlock s.mgmt.response, .relayed⟩] }] })
    ∧ bytesOf 512 (responseBlock none) = List.replicate 6 0 ++ [13] ++ List.replicate 505 0
    ∧ ∀ u b, s.transfersOk = true → s.transfer tag = some u → u.kind = .mrsp → u.output = [b] → b.origin = .relayed →
        ∃ t, exec (.blockDelivery tag) s = .next t ∧ t.transfer tag = none
          ∧ (∃ post, t.sent = s.sent ++ PortItem.delivered tag b.data
              :: .completion tag .good 0 0 (!s.mgmt.notices.isEmpty) :: post)
          ∧ (s.atRest = true → t.mgmt = s.mgmt)

/-- A request block received on the MREQ in the table (R163, R166): a kind outside the catalogue, a body length above 480 or below what the kind
requires is answered BAD-REQUEST; an EXTENT-LOAD or EXTENT-CLEAR with its item count out of range RANGE, whatever the body length up to 480; any
other block runs as the command its kind names, with its fields read from the block (log 13). The lengths and offsets of the bodies that chapter
12 does not print are R176's as log 14 reads them, a SLOT-OPEN without an expiry minute requiring 7 bytes; that a length above 480 comes before the item
count is the reading of log 34. -/
def Obligations.RequestBlockTaken : Prop :=
  ∀ (s : State) (m : Transfer) (b : Block), s.serving m = true →
    let kind := field b 0 2
    let number := field b 2 2
    let length := field b 4 2
    let items := field b 6 2
    let f : Nat → Nat → Nat := fun off width => field b (32 + off) width
    let arrives := exec (.dataFromController m.tag b) s
    let runs : Nat → Nat → Instr → Prop := fun code need c => kind = code → need ≤ length → arrives = exec c s
    let short := fun code need => kind = code ∧ length < need
    (((kind = 0 ∨ 0x19 < kind) ∨ 480 < length
        ∨ short 0x02 1 ∨ short 0x03 15 ∨ short 0x08 7 ∨ short 0x09 1 ∨ short 0x0A 1 ∨ short 0x0B 1 ∨ short 0x0C 2 ∨ short 0x0D 7
        ∨ (items ≤ 30 ∧ short 0x0E (16 * items)) ∨ (1 ≤ items ∧ items ≤ 200 ∧ short 0x0F (2 * items)) ∨ short 0x10 3
        ∨ short 0x11 11 ∨ short 0x12 1 ∨ short 0x14 66 ∨ short 0x19 4) →
      arrives = .next (s.finalAtOnce m { kind := kind, number := number, result := .badRequest }))
    ∧ (length ≤ 480 → ((kind = 0x0E ∧ 30 < items) ∨ (kind = 0x0F ∧ (items = 0 ∨ 200 < items))) →
      arrives = .next (s.finalAtOnce m { kind := kind, number := number, result := .range }))
    ∧ (length ≤ 480 →
      runs 0x01 0 (.ident number)
      ∧ runs 0x02 1 (.mode number (f 0 1))
      ∧ runs 0x03 15 (.setup number (f 0 6) (f 6 4) (f 10 1) (f 11 1) (f 12 1) (f 13 1) (f 14 1))
      ∧ runs 0x04 0 (.setupRead number)
      ∧ runs 0x05 0 (.restart number)
      ∧ runs 0x06 0 (.noticeTake number)
      ∧ runs 0x07 0 (.clockRead number)
      ∧ runs 0x08 7 (.slotOpen number (f 0 1) (f 1 1) (if f 2 1 = 0 then none else some (f 3 4)))
      ∧ runs 0x09 1 (.slotFinish number (f 0 1))
      ∧ runs 0x0A 1 (.slotDrop number (f 0 1))
      ∧ runs 0x0B 1 (.slotView number (f 0 1))
      ∧ runs 0x0C 2 (.slotScan number (f 0 1) (f 1 1))
      ∧ runs 0x0D 7 (.ringOpen number (f 0 1) (f 1 1) (f 2 2) (f 4 3))
      ∧ (items ≤ 30 → runs 0x0E (16 * items) (.extentLoad number items ((List.range items).map fun i =>
          { index := f (16 * i) 2, base := f (16 * i + 4) 4, exponent := f (16 * i + 3) 1
            slot := f (16 * i + 12) 1, firstOrdinal := f (16 * i + 8) 4 })))
      ∧ (1 ≤ items → items ≤ 200 → runs 0x0F (2 * items) (.extentClear number items ((List.range items).map fun i => f (2 * i) 2)))
      ∧ runs 0x10 3 (.extentScan number (f 0 2) (f 2 1))
      ∧ runs 0x11 11 (.jobAdopt number (f 0 1) (f 1 3) (f 4 3) (f 7 1) (f 8 3))
      ∧ runs 0x12 1 (.jobCancel number (f 0 1))
      ∧ runs 0x13 0 (.jobScan number)
      ∧ runs 0x14 66 (.exportOpen number (f 0 1) (f 1 1) (b.extractLsb' 272 512))
      ∧ runs 0x15 0 (.exportEnd number)
      ∧ runs 0x16 0 (.exportView number)
      ∧ runs 0x17 0 (.linkView number)
      ∧ runs 0x18 0 (.linkRestore number)
      ∧ runs 0x19 4 (.clockAdvance number (f 0 4)))

/-- IDENT reports the items of R171's table. SETUP-READ, CLOCK-READ, JOB-SCAN, EXPORT-VIEW and LINK-VIEW report what their rules list and change
nothing, but that LINK-VIEW clears the error summary it reports (R170, R72, R147, R160, R130); NOTICE-TAKE hands over every entry of the notice
list, oldest first, with the overflowed mark as it stood, and leaves the list empty and the mark clear (R174). A response block has the layout of
section 12.2. The order of the fields, their widths and their presence bytes are read from R176 and R166 (log 14); that the body length written is
the number of body bytes given is the model's choice (log 43). -/
def Obligations.ViewsReport : Prop :=
  ∀ (s : State) (m : Transfer) (number : Nat), s.serving m = true →
    let absent : Nat → List Byte := fun w => 0 :: le w 0
    let optional : Nat → Option Nat → List Byte := fun w x => match x with
      | none => absent w
      | some v => 1 :: le w v
    let flag : Bool → List Byte := fun b => [if b then 1 else 0]
    let u := s.mgmt.setup
    let x := s.session
    let d := s.disk
    let slot := x.slot.map s.recSlot
    exec (.ident number) s = .next (s.finalAtOnce m
      { kind := 0x01, number := number, result := .ok
        body := le 2 0x2E61 ++ le 2 0x0004 ++ le 1 1 ++ le 1 64 ++ le 1 4 ++ le 2 2048 ++ le 3 131072 ++ le 1 16 ++ le 1 16
          ++ le 1 8 ++ le 1 32 ++ le 1 65 ++ le 1 (match s.mgmt.mode with
            | .starting => 0
            | .config => 1
            | .draining => 2
            | .run => 3) })
    ∧ exec (.setupRead number) s = .next (s.finalAtOnce m
        { kind := 0x04, number := number, result := .ok
          body := le 6 u.first ++ le 4 u.length ++ le 1 u.depth ++ le 1 u.bgLimit ++ le 1 u.bgShare ++ le 1 u.timeout
            ++ le 1 u.warnLevel })
    ∧ exec (.clockRead number) s = .next (s.finalAtOnce m
        { kind := 0x07, number := number, result := .ok
          body := le 4 s.clock.minutes ++ le 2 s.clock.ticks ++ optional 4 s.clock.persisted
            ++ le 1 (match s.clock.source with | .intact => 0 | .damaged => 1)
            ++ flag (s.clock.minutes = 4294967295) })
    ∧ exec (.jobScan number) s = .next (s.finalAtOnce m
        { kind := 0x13, number := number, result := .ok, items := s.jobs.queue.length
          body := s.jobs.queue.flatMap fun j =>
            le 1 j.number ++ le 1 j.state.code ++ le 1 j.stage.code ++ le 1 j.source ++ le 1 j.target
              ++ (match j.fence with | none => [0, 0] | some (.serial n) => 1 :: le 1 n | some .noEpoch => [2, 0])
              ++ [0] ++ le 4 j.firstSource ++ le 4 j.count ++ le 4 j.firstTarget ++ le 3 j.done ++ le 3 j.copied
              ++ le 3 j.lost ++ le 3 j.overtaken })
    ∧ exec (.exportView number) s = .next (s.finalAtOnce m
        { kind := 0x16, number := number, result := .ok
          body := le 1 (match x.state with | .idle => 0 | .active => 1 | .ending => 2)
            ++ optional 1 (x.mode.map fun k => match k with | .move => 1 | .copy => 2) ++ optional 1 x.slot
            ++ optional 1 (x.endCause.map fun k => match k with | .completed => 1 | .ended => 2 | .closed => 3)
            ++ optional 3 (if x.mode = some .move then x.cursor else none) ++ flag x.advancePending
            ++ optional 3 (slot.map fun r => r.length) ++ optional 3 (slot.map fun r => r.floor)
            ++ optional 3 (slot.map fun r => r.persistedFloor) ++ le 4 x.chunksDelivered ++ flag x.keyPresent
            ++ le 1 x.held.length ++ le 1 x.heldBack.length })
    ∧ exec (.linkView number) s = .next
        (({ s with disk := { d with timeoutSeen := false, failureSeen := false, resetSeen := false } } : State).finalAtOnce m
          { kind := 0x17, number := number, result := .ok
            body := le 1 (match d.link with | .up => 0 | .resetting => 1 | .down => 2)
              ++ optional 1 (d.speed.map fun v => match v with | .gen1 => 1 | .gen2 => 2 | .gen3 => 3)
              ++ le 1 (match d.healthState with | .normal => 0 | .warning => 1 | .degraded => 2 | .cutoff => 3)
              ++ le 1 d.health ++ le 1 (d.outstanding.filter fun c => c.owner ≠ .job).length
              ++ le 1 (d.outstanding.filter fun c => c.owner = .job).length ++ le 1 s.issueQueue.length
              ++ flag d.timeoutSeen ++ flag d.failureSeen ++ flag d.resetSeen })
    ∧ exec (.noticeTake number) s = .next
        (({ s with mgmt := { s.mgmt with notices := [], overflowed := false } } : State).finalAtOnce m
          { kind := 0x06, number := number, result := .ok, items := s.mgmt.notices.length, overflowed := s.mgmt.overflowed
            body := s.mgmt.notices.flatMap fun n =>
              le 1 n.kind.code ++ le 1 (n.subject.getD 0) ++ le 1 n.count ++ (match n.details with
                | .nothing => List.replicate 12 0
                | .jobDone copied lost overtaken => [0, 0, 0] ++ le 3 copied ++ le 3 lost ++ le 3 overtaken
                | .jobEnded outcome chunk copied lost overtaken =>
                    le 1 outcome.code ++ le 2 chunk ++ le 3 copied ++ le 3 lost ++ le 3 overtaken) })
    ∧ ∀ r : Response, r.body.length ≤ 480 →
        bytesOf 512 (responseBlock (some r)) = le 2 r.kind ++ le 2 r.number ++ le 2 r.body.length ++ le 2 r.result.code ++ le 2 r.items
          ++ le 2 r.next ++ [if r.overflowed then 1 else 0] ++ List.replicate 19 0 ++ r.body ++ List.replicate (480 - r.body.length) 0

/-- SLOT-VIEW reports one slot in the layouts of section 12.2 and clears its changed flag (R34, R64, R32). SLOT-SCAN and EXTENT-SCAN report a run of slots
or entries, the last followed by the first, with the next start or index, and change nothing (R35, R17). A number, start or count out of range is
refused with RANGE. That the body of a view ends with the last field of its layout is the model's choice (log 43). -/
def Obligations.SlotsAndMapReported : Prop :=
  ∀ (s : State) (m : Transfer) (number : Nat), s.serving m = true →
    let done : State → Nat → List Byte → State := fun t kind body =>
      t.finalAtOnce m { kind := kind, number := number, result := .ok, body := body }
    let refused : Instr → Nat → Prop := fun c kind =>
      exec c s = .next (s.finalAtOnce m { kind := kind, number := number, result := .range })
    (∀ n, 67 < n → refused (.slotView number n) 0x0B)
    ∧ (∀ n r, n ≤ 63 → r = s.recSlot n →
        exec (.slotView number n) s = .next (done (s.setRec n { r with changed := false }) 0x0B
          (le 1 n ++ le 1 r.state.code ++ le 1 r.cls.code
            ++ le 1 ((if r.changed then 1 else 0) + (if r.persisting then 2 else 0) + (if r.finishPending then 4 else 0))
            ++ le 4 r.high ++ le 4 r.length ++ [if r.expiry.isSome then 1 else 0, 0, 0, 0] ++ le 4 (r.expiry.getD 0)
            ++ le 4 r.floor ++ le 4 r.persistedFloor ++ le 4 r.created ++ le 1 r.inFlight)))
    ∧ (∀ n g, 64 ≤ n → n ≤ 67 → g = s.ring n →
        exec (.slotView number n) s = .next (done (s.setRing n { g with changed := false }) 0x0B
          (le 1 n ++ le 1 g.state.code ++ le 1 g.cls.code ++ le 1 (if g.changed then 1 else 0)
            ++ le 2 g.window ++ le 1 g.epochLength ++ [0] ++ le 4 g.size ++ le 4 g.tagStart
            ++ (match g.lastSerial with | none => [0, 0] | some v => 1 :: le 1 v) ++ le 1 g.held.length
            ++ (match s.sweep with | none => [0, 0] | some w => if w.slot = n then 1 :: le 1 w.serial else [0, 0])
            ++ le 1 (s.sweepQueue.filter fun q => q.slot = n).length ++ le 1 g.epochs.length ++ [0] ++ le 4 g.sequence
            ++ g.epochs.flatMap fun e => le 1 e.serial ++ le 1 e.state.code ++ [0, 0] ++ le 4 e.sequence ++ le 4 e.openMinute)))
    ∧ ∀ start count,
      ((67 < start ∨ count = 0 ∨ 68 < count) → refused (.slotScan number start count) 0x0C)
      ∧ (start ≤ 67 → 1 ≤ count → count ≤ 68 →
        exec (.slotScan number start count) s = .next (s.finalAtOnce m
          { kind := 0x0C, number := number, result := .ok, items := count, next := (start + count) % 68
            body := (List.range count).flatMap fun i =>
              let n := (start + i) % 68
              if n < 64 then
                le 1 n ++ le 1 (s.recSlot n).state.code ++ le 1 (s.recSlot n).cls.code
                  ++ le 1 ((if (s.recSlot n).changed then 1 else 0) + (if (s.recSlot n).persisting then 2 else 0))
              else
                le 1 n ++ le 1 (s.ring n).state.code ++ le 1 (s.ring n).cls.code
                  ++ le 1 (if (s.ring n).changed then 1 else 0) }))
      ∧ ((2047 < start ∨ count = 0 ∨ 30 < count) → refused (.extentScan number start count) 0x10)
      ∧ (start ≤ 2047 → 1 ≤ count → count ≤ 30 →
        exec (.extentScan number start count) s = .next (s.finalAtOnce m
          { kind := 0x10, number := number, result := .ok, items := count, next := (start + count) % 2048
            body := (List.range count).flatMap fun i =>
              let n := (start + i) % 2048
              le 2 n ++ le 1 (s.extent n).state.code ++ le 1 (s.extent n).exponent ++ le 4 (s.extent n).base
                ++ le 4 (s.extent n).firstOrdinal ++ le 1 (s.extent n).slot ++ le 1 (s.extent n).inUse ++ [0, 0] }))

/-- MODE (R168, R169): RANGE for a target that is neither RUN nor CONFIG; NOT-SET, OK without effect, BUSY in DRAINING; RUN entered from CONFIG; from
RUN the mode becomes DRAINING, with the QUEUED PROTECTED transfers held back and an ACTIVE session ENDING, and CONFIG at once when nothing holds
the drain. The mode is given with every result but RANGE (log 15). -/
def Obligations.ModeChanges : Prop :=
  ∀ (s : State) (m : Transfer) (number target : Nat), s.serving m = true →
    let final : State → Result → Nat → State := fun t result code =>
      t.finalAtOnce m { kind := 0x02, number := number, result := result, body := le 1 code }
    (target ≠ 1 → target ≠ 3 →
      exec (.mode number target) s = .next (s.finalAtOnce m { kind := 0x02, number := number, result := .range }))
    ∧ (s.mgmt.mode = .config → exec (.mode number 1) s = .next (final s .ok 1))
    ∧ (s.mgmt.mode = .config → s.mgmt.setup.length = 0 → exec (.mode number 3) s = .next (final s .notSet 1))
    ∧ (s.mgmt.mode = .run → exec (.mode number 3) s = .next (final s .ok 3))
    ∧ (s.mgmt.mode = .draining → (target = 1 ∨ target = 3) → exec (.mode number target) s = .next (final s .busy 2))
    ∧ (s.mgmt.mode = .config → 0 < s.mgmt.setup.length →
        (({ s with mgmt := { s.mgmt with mode := .run } } : State).atRest = true →
          exec (.mode number 3) s = .next (final { s with mgmt := { s.mgmt with mode := .run } } .ok 3))
        ∧ ∃ t, exec (.mode number 3) s = .next t ∧ t.mgmt.mode = .run)
    ∧ (s.mgmt.mode = .run →
        ∃ t, exec (.mode number 1) s = .next t ∧ (t.mgmt.mode = .draining ∨ t.mgmt.mode = .config)
          ∧ (t.mgmt.response.map fun r => (r.kind, r.number, r.result, r.body))
              = some (0x02, number, .ok, le 1 (if t.mgmt.mode = .draining then 2 else 1))
          ∧ (s.session.slot.isSome = true → t.session.state ≠ .active)
          ∧ ((∃ u ∈ s.transfers, u.handling = .guarded ∧ u.state ≠ .queued) → t.mgmt.mode = .draining
              ∧ ∀ u ∈ s.transfers, u.handling = .guarded → u.state = .queued → u.tag ∉ t.issueQueue)
          ∧ ((∀ u ∈ s.transfers, u.handling ≠ .guarded) → s.jobs.queue = [] → t.mgmt.mode = .config))

/-- SETUP (R170, R1, R18, R113): WRONG-MODE outside CONFIG, RANGE for a partition that fails the tests of R1; else each value is stored clamped to its
range and given back, a change of partition empties the extent map, and a share count above the new N returns to 0. The order and
widths of the response's fields are read from R176 (log 14). -/
def Obligations.SetupStored : Prop :=
  ∀ (s : State) (m : Transfer) (number first length depth bgLimit bgShare timeout warnLevel : Nat), s.serving m = true →
    let c : Instr := .setup number first length depth bgLimit bgShare timeout warnLevel
    let fits := first % 256 = 0 ∧ length ≤ 16777216 ∧ first + 256 * length ≤ 281474976710656
    let u : Setup :=
      { first := first, length := length, depth := if depth < 1 then 1 else if 16 < depth then 16 else depth
        bgLimit := if 1 < bgLimit then 1 else bgLimit, bgShare := if 15 < bgShare then 15 else bgShare
        timeout := if 255 < timeout then 255 else timeout
        warnLevel := if warnLevel < 1 then 1 else if 8 < warnLevel then 8 else warnLevel }
    let stored : State :=
      { s with
        mgmt := { s.mgmt with setup := u }
        extents := if u.first = s.mgmt.setup.first ∧ u.length = s.mgmt.setup.length then s.extents else []
        engine := { s.engine with share := if u.bgShare < s.engine.share then 0 else s.engine.share } }
    (s.mgmt.mode ≠ .config →
      exec c s = .next (s.finalAtOnce m { kind := 0x03, number := number, result := .wrongMode }))
    ∧ (s.mgmt.mode = .config → ¬fits →
      exec c s = .next (s.finalAtOnce m { kind := 0x03, number := number, result := .range }))
    ∧ (s.mgmt.mode = .config → fits → stored.atRest = true →
      exec c s = .next (stored.finalAtOnce m
        { kind := 0x03, number := number, result := .ok
          body := le 6 u.first ++ le 4 u.length ++ le 1 u.depth ++ le 1 u.bgLimit ++ le 1 u.bgShare ++ le 1 u.timeout
            ++ le 1 u.warnLevel }))
    ∧ (s.mgmt.mode = .config → fits → ∃ t, exec c s = .next t ∧ t.mgmt.setup = u)

/-- RESTART (R172, R105, R148, R161, R132, R19, R65, R175): the part returns to STARTING with setup values at their defaults; transfers, jobs, session,
extent map, rings, tags and their keys are gone, the notice list is empty, the disk link is being established again, and the request is in
progress until the reload completes. The clock and the stored records stay. That the transfers end in table order, the MREQ last, is the model's
choice (log 11). -/
def Obligations.RestartActs : Prop :=
  ∀ (s : State) (m : Transfer) (number : Nat), s.serving m = true → s.isOutstanding (.tag m.tag) = false →
    ∃ t, exec (.restart number) s = .next t ∧ t.transfers = [] ∧ t.issueQueue = [] ∧ t.jobs.queue = []
      ∧ t.session.state = .idle ∧ t.session.slot = none ∧ t.session.endCause = none ∧ t.session.mode = none
      ∧ t.extents = [] ∧ t.rings = [] ∧ t.tags = [] ∧ t.sweep = none ∧ t.sweepQueue = []
      ∧ t.keyEntry .transit = none ∧ (∀ n serial, t.keyEntry (.epoch n serial) = none)
      ∧ (∀ n, 64 ≤ n → t.keyEntry (.slot n) = none)
      ∧ t.mgmt.mode = .starting ∧ t.mgmt.notices = [] ∧ t.mgmt.overflowed = false
      ∧ t.mgmt.setup = { first := 0, length := 0, depth := 8, bgLimit := 1, bgShare := 4, timeout := 50, warnLevel := 6 }
      ∧ t.mgmt.request = some { kind := 0x05, number := number, wait := .restart }
      ∧ t.mgmt.response = some { kind := 0x05, number := number, result := .pending }
      ∧ t.disk.link = .resetting ∧ (s.disk.link ≠ .resetting → t.disk.outstanding = [])
      ∧ t.disk.health = 0 ∧ t.disk.healthState = .normal
      ∧ t.engine = { burst := none, position := 15, share := 0, cancels := 0 }
      ∧ t.clock = s.clock ∧ t.store.records = s.store.records ∧ t.store.time = s.store.time
      ∧ (∃ mid, t.sent = s.sent ++ mid ++ [.completion m.tag .good 0 0 false]
          ∧ mid.map (fun x => match x with | .completion tag .error reason _ _ => some (tag, reason) | _ => none)
              = (s.transfers.filter fun u => u.tag ≠ m.tag).map fun u => some (u.tag, 12))

/-! ### Clock, slots, rings, the extent map -/

/-- CLOCK-ADVANCE (R73, R68): BACKWARD below the count, OK with the count at it; above it the target waits for a write of the time record, which begins
at once when the store writer is idle and carries the target. The width of the count in the response is read from R176 (log 14). -/
def Obligations.ClockAdvanceTaken : Prop :=
  ∀ (s : State) (m : Transfer) (number target : Nat), s.serving m = true →
    (target < s.clock.minutes →
      exec (.clockAdvance number target) s = .next (s.finalAtOnce m { kind := 0x19, number := number, result := .backward }))
    ∧ (target = s.clock.minutes →
      exec (.clockAdvance number target) s = .next (s.finalAtOnce m
        { kind := 0x19, number := number, result := .ok, body := le 4 s.clock.minutes }))
    ∧ (s.clock.minutes < target → s.store.writer.isSome = true →
      exec (.clockAdvance number target) s = .next
        (({ s with
            clock := { s.clock with target := some target }
            store := { s.store with
              queue := if RecordId.time ∈ s.store.queue then s.store.queue else s.store.queue ++ [.time] } } : State).leftPending m
          0x19 number .clockAdvance))
    ∧ (s.clock.minutes < target → s.store.writer = none → s.store.queue = [] →
      exec (.clockAdvance number target) s = .next
        (({ s with
            clock := { s.clock with target := some target }
            store := { s.store with
              writer := some { record := .time, content := .time target, erasure := false, answers := true, floor := 0 } } } : State).leftPending m
          0x19 number .clockAdvance))

/-- SLOT-OPEN is tested in the order of R24: the first test failed gives the result, final at once without any change of state. With every test
passed the slot named, or with "any" the lowest-numbered EMPTY one, is opened. -/
def Obligations.SlotOpenTested : Prop :=
  ∀ (s : State) (m : Transfer) (number slot cls : Nat) (expiry : Option Nat), s.serving m = true →
    let refused : Result → Prop := fun result => exec (.slotOpen number slot cls expiry) s
      = .next (s.finalAtOnce m { kind := 0x08, number := number, result := result })
    let inTime := ∀ e, expiry = some e → s.clock.minutes < e
    (63 < slot → slot ≠ 255 → refused .range)
    ∧ ((slot ≤ 63 ∨ slot = 255) →
      (cls = 2 → refused .cls) ∧ (2 < cls → refused .range) ∧ (cls ≤ 1 → ¬inTime → refused .range)
      ∧ (cls ≤ 1 → inTime →
        (slot ≤ 63 → (s.recSlot slot).state ≠ .empty → refused .slotState)
        ∧ (slot = 255 → (∀ n, n ≤ 63 → (s.recSlot n).state ≠ .empty) → refused .noRoom)
        ∧ ∀ n, n ≤ 63 → (s.recSlot n).state = .empty → (slot = n ∨ (slot = 255 ∧ ∀ k, k < n → (s.recSlot k).state ≠ .empty)) →
            ∃ t, exec (.slotOpen number slot cls expiry) s = .next t
              ∧ (t.recSlot n).state = .opened ∧ ∀ k, k ≠ n → t.recSlot k = s.recSlot k))

/-- A SLOT-OPEN that passes the tests (R25, R77): the slot named or the lowest-numbered EMPTY one is OPEN with a new nonce and the key derived from
it, its record is queued for the store or begins to be written, and the response is PENDING until that write ends. HMAC is that of its standard
(log 1). -/
def Obligations.SlotOpenTaken : Prop :=
  ∀ (s : State) (m : Transfer) (number slot cls : Nat) (expiry : Option Nat), s.serving m = true →
    cls ≤ 1 → (∀ e, expiry = some e → s.clock.minutes < e) →
    ∀ n nonce key, n ≤ 63 → (s.recSlot n).state = .empty →
      (slot = n ∨ (slot = 255 ∧ ∀ k, k < n → (s.recSlot k).state ≠ .empty)) →
      nonce = Config.randomBits s.draws →
      key = hmac Config.rootKey ([0x73, 0x6C, 0x6F, 0x74] ++ le 1 n ++ bytesOf 16 nonce) →
      ∃ t, exec (.slotOpen number slot cls expiry) s = .next t
        ∧ t.recSlot n =
            { state := .opened, cls := if cls = 0 then .free else .once, nonce := nonce, high := 0, length := 0
              expiry := expiry, floor := 0, persistedFloor := 0, created := s.clock.minutes, finishPending := false
              inFlight := 0, changed := true, persisting := true, erased := false }
        ∧ (∀ k, k ≠ n → t.recSlot k = s.recSlot k)
        ∧ t.keyEntry (.slot n) = some ⟨.slot n, key, expandPair key⟩
        ∧ (∀ o, o ≠ .slot n → t.keyEntry o = s.keyEntry o)
        ∧ (s.store.writer.isSome = true → t.store = { s.store with
            queue := if RecordId.slot n ∈ s.store.queue then s.store.queue else s.store.queue ++ [.slot n] })
        ∧ (s.store.writer = none → s.store.queue = [] → t.store = { s.store with
            writer := some
              { record := .slot n, content := .slot (storedOf (t.recSlot n)), erasure := false, answers := true, floor := 0 } })
        ∧ { t with recs := s.recs, keys := s.keys, store := s.store, draws := s.draws } =
            s.leftPending m 0x08 number (.slotOpen n)

/-- SLOT-FINISH (R26, R27): the tests in their order; with no write in flight the slot becomes FINISHED with its high ordinal as length and waits for
the write of its record; with writes in flight finish pending is set, and the finish completes so at the completion of the last of them (R22). -/
def Obligations.SlotFinishTaken : Prop :=
  (∀ (s : State) (m : Transfer) (number n : Nat), s.serving m = true →
    let refused : Result → Prop := fun result => exec (.slotFinish number n) s
      = .next (s.finalAtOnce m { kind := 0x09, number := number, result := result })
    (67 < n → refused .range)
    ∧ (64 ≤ n → n ≤ 67 → refused .slotState)
    ∧ (n ≤ 63 →
      ((s.recSlot n).state ≠ .opened → refused .slotState)
      ∧ ((s.recSlot n).state = .opened →
        ((∃ j ∈ s.jobs.queue, j.target = n) → refused .busy)
        ∧ ((∀ j ∈ s.jobs.queue, j.target ≠ n) →
          (0 < (s.recSlot n).inFlight → exec (.slotFinish number n) s = .next
            ((s.setRec n { s.recSlot n with finishPending := true, changed := true }).leftPending m 0x09 number
              (.finishPending n)))
          ∧ ((s.recSlot n).inFlight = 0 → ∃ t, exec (.slotFinish number n) s = .next t
              ∧ t.recSlot n = { s.recSlot n with
                  state := .finished, length := (s.recSlot n).high, finishPending := false, changed := true
                  persisting := true }
              ∧ (∀ k, k ≠ n → t.recSlot k = s.recSlot k)
              ∧ (s.store.writer.isSome = true → t.store = { s.store with
                  queue := if RecordId.slot n ∈ s.store.queue then s.store.queue else s.store.queue ++ [.slot n] })
              ∧ (s.store.writer = none → s.store.queue = [] → t.store = { s.store with
                  writer := some
                    { record := .slot n, content := .slot (storedOf (t.recSlot n)), erasure := false, answers := true
                      floor := (s.recSlot n).floor } })
              ∧ { t with recs := s.recs, store := s.store } =
                  s.leftPending m 0x09 number (.finishWrite n (s.recSlot n).high))))))
  ∧ ∀ (s : State) (n tag : Nat) (u : Transfer), s.powered = true → s.transfersOk = true → s.mgmt.mode ≠ .draining →
      s.transfer tag = some u → u.kind = .write → u.writeSlots = [n] → s.isOutstanding (.tag tag) = true →
      (s.recSlot n).state = .opened → (s.recSlot n).finishPending = true → (s.recSlot n).inFlight = 1 →
      ∃ t, exec (.commandSuccess (.tag tag)) s = .next t
        ∧ (t.recSlot n).state = .finished ∧ (t.recSlot n).length = (s.recSlot n).high
        ∧ (t.recSlot n).finishPending = false ∧ (t.recSlot n).inFlight = 0 ∧ (t.recSlot n).changed = true
        ∧ (RecordId.slot n ∈ t.store.queue ∨ t.store.writer.any (fun w => w.record = .slot n))
        ∧ ∀ q, s.mgmt.request = some q → q.wait = .finishPending n →
            t.mgmt.request = some { q with wait := .finishWrite n (s.recSlot n).high }

/-- SLOT-DROP of a recording slot (R30, R28, R16, R98, R83): RANGE above 67, SLOT-STATE for an EMPTY slot, the wait for an ERASING one; from OPEN,
FINISHED or MOVING the slot is ERASING: its key is destroyed, its VALID entries are EMPTY or RETIRING, its undelivered output is withdrawn, a
session on it ends, the jobs naming it as target leave, and its erasure is demanded from the store. -/
def Obligations.SlotDropErases : Prop :=
  ∀ (s : State) (m : Transfer) (number n : Nat), s.serving m = true →
    (67 < n → exec (.slotDrop number n) s = .next (s.finalAtOnce m { kind := 0x0A, number := number, result := .range }))
    ∧ (n ≤ 67 → (n ≤ 63 → (s.recSlot n).state = .empty) → (64 ≤ n → (s.ring n).state = .empty) →
        exec (.slotDrop number n) s = .next (s.finalAtOnce m { kind := 0x0A, number := number, result := .slotState }))
    ∧ (n ≤ 67 → (n ≤ 63 → (s.recSlot n).state = .erasing) → (64 ≤ n → (s.ring n).state = .erasing) →
        exec (.slotDrop number n) s = .next (s.leftPending m 0x0A number (.drop n)))
    ∧ (n ≤ 63 → ((s.recSlot n).state = .opened ∨ (s.recSlot n).state = .finished ∨ (s.recSlot n).state = .moving) →
      ∃ t, exec (.slotDrop number n) s = .next t
        ∧ t.mgmt.request = some { kind := 0x0A, number := number, wait := .drop n }
        ∧ t.mgmt.response = some { kind := 0x0A, number := number, result := .pending }
        ∧ (t.recSlot n).state = .erasing ∧ (t.recSlot n).changed = true ∧ (t.recSlot n).finishPending = false
        ∧ (t.recSlot n).high = (s.recSlot n).high ∧ (t.recSlot n).length = (s.recSlot n).length
        ∧ (t.recSlot n).floor = (s.recSlot n).floor ∧ (t.recSlot n).cls = (s.recSlot n).cls
        ∧ t.keyEntry (.slot n) = none
        ∧ (RecordId.slot n ∈ t.store.queue ∨ t.store.writer.any (fun w => w.record = .slot n))
        ∧ (∀ v ∈ t.transfers, ∀ b ∈ v.output, (∀ c, b.origin ≠ .plain n c) ∧ ∀ c l, b.origin ≠ .transit n c l)
        ∧ (∀ b, t.engine.burst = some b → b.withdrawn = false →
            ∀ o ∈ b.origins, (∀ c, o ≠ .plain n c) ∧ ∀ c l, o ≠ .transit n c l)
        ∧ (s.session.state ≠ .idle → s.session.slot = some n →
            t.session.state = .idle ∧ t.session.endCause = some .closed ∧ t.keyEntry .transit = none
              ∧ (t.mgmt.overflowed = true ∨ ∃ x ∈ t.mgmt.notices, x.kind = .moveEnded ∧ x.subject = some n))
        ∧ (s.jobsOk = true → s.jobOutstanding = false → (∀ j, s.headJob = some j → j.state ≠ .ending) →
            ∀ j ∈ t.jobs.queue, j.target ≠ n)
        ∧ (s.tablesOk = true → s.jobs.queue = [] → s.mgmt.mode ≠ .draining →
            ∀ i, t.extent i =
              if (s.extent i).state = .valid ∧ (s.extent i).slot = n then
                if (s.extent i).inUse = 0 then {} else { s.extent i with state := .retiring }
              else s.extent i))

/-- SLOT-DROP of a RUNNING ring (R62, R63, R83): its keys and those of its epochs are destroyed and its sweeps stop; while an entry naming it is in
use it is ERASING, with every epoch SWEEPING and its held list empty, else it is EMPTY at once with its tags cleared and the request is OK. -/
def Obligations.RingDropErases : Prop :=
  ∀ (s : State) (m : Transfer) (number n : Nat), s.serving m = true → 64 ≤ n → n ≤ 67 → (s.ring n).state = .running →
    s.keysOk = true → s.tablesOk = true → s.jobs.queue = [] → s.mgmt.mode ≠ .draining →
    ∃ t, exec (.slotDrop number n) s = .next t
      ∧ t.keyEntry (.slot n) = none ∧ (∀ serial, t.keyEntry (.epoch n serial) = none)
      ∧ (∀ w, t.sweep = some w → w.slot ≠ n) ∧ (∀ w ∈ t.sweepQueue, w.slot ≠ n)
      ∧ (∀ v ∈ t.transfers, ∀ b ∈ v.output, ∀ serial, b.origin ≠ .epoch n serial)
      ∧ ((∃ i, (s.extent i).slot = n ∧ (((s.extent i).state = .valid ∧ (s.extent i).inUse ≠ 0)
            ∨ (s.extent i).state = .retiring)) →
          t.ring n = { s.ring n with
              state := .erasing, held := [], changed := true
              epochs := (s.ring n).epochs.map fun e => { e with state := .sweeping } }
            ∧ t.mgmt.request = some { kind := 0x0A, number := number, wait := .drop n }
            ∧ t.mgmt.response = some { kind := 0x0A, number := number, result := .pending })
      ∧ ((∀ i, (s.extent i).slot = n → (s.extent i).state = .empty ∨ ((s.extent i).state = .valid ∧ (s.extent i).inUse = 0)) →
          t.ring n = {} ∧ (∀ c, c < (s.ring n).size → t.tagAt ((s.ring n).tagStart + c) = none)
            ∧ (∀ i, (t.extent i).slot = n → (t.extent i).state = .empty)
            ∧ t.mgmt.request = none
            ∧ t.mgmt.response = some { kind := 0x0A, number := number, result := .ok })

/-- RING-OPEN (R45, R46, R48, R77): the tests in their order; accepted, the ring named or the lowest-numbered EMPTY one is RUNNING with the window
clamped to 1440, L = ceil(W / 8), and the lowest run of R tags outside every allocated range. The order and widths of the response's fields are
read from R176 (log 14); HMAC is that of its standard (log 1). -/
def Obligations.RingOpenTaken : Prop :=
  ∀ (s : State) (m : Transfer) (number slot cls window size : Nat), s.serving m = true →
    let c : Instr := .ringOpen number slot cls window size
    let refused : Result → Prop := fun result =>
      exec c s = .next (s.finalAtOnce m { kind := 0x0D, number := number, result := result })
    let free : Nat → Prop := fun start => start + size ≤ 131072 ∧ ∀ k, 64 ≤ k → k ≤ 67 → (s.ring k).state ≠ .empty →
      start + size ≤ (s.ring k).tagStart ∨ (s.ring k).tagStart + (s.ring k).size ≤ start
    let fits := cls ≤ 2 ∧ window ≠ 0 ∧ size ≠ 0 ∧ size ≤ 131072
    ((slot < 64 ∨ 67 < slot) → slot ≠ 255 → refused .range)
    ∧ (((64 ≤ slot ∧ slot ≤ 67) ∨ slot = 255) →
      (¬fits → refused .range)
      ∧ (fits →
        (slot ≠ 255 → (s.ring slot).state ≠ .empty → refused .slotState)
        ∧ (slot = 255 → (∀ n, 64 ≤ n → n ≤ 67 → (s.ring n).state ≠ .empty) → refused .noRoom)
        ∧ ∀ n, 64 ≤ n → n ≤ 67 → (s.ring n).state = .empty →
            (slot = n ∨ (slot = 255 ∧ ∀ k, 64 ≤ k → k < n → (s.ring k).state ≠ .empty)) →
            ((∀ start, ¬free start) → refused .noRoom)
            ∧ ∀ start w nonce key, free start → (∀ lower, lower < start → ¬free lower) →
                w = (if 1440 < window then 1440 else window) → nonce = Config.randomBits s.draws →
                key = hmac Config.rootKey ([0x73, 0x6C, 0x6F, 0x74] ++ le 1 n ++ bytesOf 16 nonce) →
                ∃ t, exec c s = .next t
                  ∧ t.ring n =
                      { state := .running, cls := if cls = 0 then .free else if cls = 1 then .once else .never
                        nonce := nonce, window := w, epochLength := (w + 7) / 8, size := size, tagStart := start
                        epochs := [], lastSerial := none, sequence := 0, held := [], changed := true }
                  ∧ (∀ k, k ≠ n → t.ring k = s.ring k)
                  ∧ t.keyEntry (.slot n) = some ⟨.slot n, key, expandPair key⟩
                  ∧ (∀ o, o ≠ .slot n → t.keyEntry o = s.keyEntry o)
                  ∧ { t with rings := s.rings, keys := s.keys, draws := s.draws } = s.finalAtOnce m
                      { kind := 0x0D, number := number, result := .ok
                        body := le 1 n ++ le 2 w ++ le 1 ((w + 7) / 8) ++ le 3 size ++ le 3 start }))

/-- EXTENT-LOAD (R13, R14, R12) and EXTENT-CLEAR (R15): RANGE for a count out of range and BAD-REQUEST for a short body; else the items are taken in
list order, each against the map as the earlier ones left it. A description passes the nine tests of R14 and becomes VALID at its index, or gives the
result of the first it fails; an entry cleared becomes EMPTY, or RETIRING while it is in use. That a row with fewer items than its count stands for a
short body is the model's reading (log 13). -/
def Obligations.ExtentMapChanges : Prop :=
  ∀ (s : State) (m : Transfer) (number items : Nat), s.serving m = true →
    let refused : Instr → Nat → Result → Prop := fun c kind result =>
      exec c s = .next (s.finalAtOnce m { kind := kind, number := number, result := result })
    let nameable : Nat → Bool := fun n =>
      if n < 64 then
        (s.recSlot n).state = .opened || (s.recSlot n).state = .finished || (s.recSlot n).state = .moving
      else (s.ring n).state = .running
    let loaded : State → ExtentDesc → Result := fun a d =>
      if 2047 < d.index then .range
      else if (a.extent d.index).state ≠ .empty then .busy
      else if 14 < d.exponent then .range
      else if d.base % 2 ^ d.exponent ≠ 0 then .range
      else if s.mgmt.setup.length < d.base + 2 ^ d.exponent then .range
      else if 67 < d.slot then .range
      else if nameable d.slot = false then .noSlot
      else if (if d.slot < 64 then 1048576 else (s.ring d.slot).size) < d.firstOrdinal + 2 ^ d.exponent then .range
      else if a.extents.any (fun x => x.2.state ≠ .empty
          && d.base / 2 ^ max d.exponent x.2.exponent = x.2.base / 2 ^ max d.exponent x.2.exponent) then .overlap
      else .ok
    let cleared : State → Nat → Result := fun a k =>
      if 2047 < k then .range
      else match (a.extent k).state with
        | .empty => .notFound
        | .valid => if (a.extent k).inUse = 0 then .ok else .busy
        | .retiring => .busy
    (∀ descs : List ExtentDesc,
      (30 < items → refused (.extentLoad number items descs) 0x0E .range)
      ∧ (items ≤ 30 → descs.length < items → refused (.extentLoad number items descs) 0x0E .badRequest)
      ∧ (items ≤ 30 → descs.length = items →
        ∃ (t : State) (results : List Result) (map : Nat → State), exec (.extentLoad number items descs) s = .next t
          ∧ results.length = items ∧ (map 0).extents = s.extents ∧ (map items).extents = t.extents
          ∧ (∀ i d, descs[i]? = some d →
              results[i]? = some (loaded (map i) d)
                ∧ ∀ k, (map (i + 1)).extent k =
                    if loaded (map i) d = .ok ∧ k = d.index then
                      { state := .valid, base := d.base, exponent := d.exponent, slot := d.slot
                        firstOrdinal := d.firstOrdinal, inUse := 0 }
                    else (map i).extent k)
          ∧ { t with extents := s.extents } = s.finalAtOnce m
              { kind := 0x0E, number := number, result := .ok
                items := (results.filter fun r => r = .ok).length, body := results.flatMap fun r => le 2 r.code }))
    ∧ ∀ indices : List Nat,
      ((items = 0 ∨ 200 < items) → refused (.extentClear number items indices) 0x0F .range)
      ∧ (1 ≤ items → items ≤ 200 → indices.length < items → refused (.extentClear number items indices) 0x0F .badRequest)
      ∧ (1 ≤ items → items ≤ 200 → indices.length = items →
        ∃ (t : State) (results : List Result) (map : Nat → State), exec (.extentClear number items indices) s = .next t
          ∧ results.length = items ∧ (map 0).extents = s.extents ∧ (map items).extents = t.extents
          ∧ (∀ i k, indices[i]? = some k →
              results[i]? = some (cleared (map i) k)
                ∧ ∀ n, (map (i + 1)).extent n =
                    if n = k ∧ cleared (map i) k = .ok then {}
                    else if n = k ∧ k ≤ 2047 ∧ ((map i).extent k).state = .valid then
                      { (map i).extent k with state := .retiring }
                    else (map i).extent n)
          ∧ { t with extents := s.extents } = s.finalAtOnce m
              { kind := 0x0F, number := number, result := .ok, items := items
                body := results.flatMap fun r => le 2 r.code })

/-! ### Jobs, the export session, the disk link -/

/-- JOB-ADOPT (R135, R136, R133, R134): the tests in their order; accepted, a job with a new number stands at the tail, WAITING, with QUEUE-WARN when
their number comes up to the warning level. As the head in RUN it starts at the same event (R137, R57): a forced open gives it its fence and it is
RUNNING with the READ of its first chunk requested or issued (R138), or it stays STARTING while 8 epochs are LIVE or the next serial is SWEEPING. The
width of its response's field is read from R176 (log 14). -/
def Obligations.JobAdopted : Prop :=
  ∀ (s : State) (m : Transfer) (number source firstSource count target firstTarget : Nat), s.serving m = true →
    let c : Instr := .jobAdopt number source firstSource count target firstTarget
    let refused : Result → Prop := fun result =>
      exec c s = .next (s.finalAtOnce m { kind := 0x11, number := number, result := result })
    let g := s.ring source
    let x := s.recSlot target
    let next := if 255 ≤ s.jobs.lastNumber then 1 else s.jobs.lastNumber + 1
    let named := 64 ≤ source ∧ source ≤ 67 ∧ target ≤ 63
    let ready := g.state = .running ∧ x.state = .opened
    let allowed := g.cls ≠ .never ∧ ¬(g.cls = .once ∧ x.cls = .free)
    let inRange := 1 ≤ count ∧ count ≤ 65536 ∧ count ≤ g.size ∧ firstSource < g.size ∧ firstTarget + count ≤ 1048576
    let added : Job :=
      { number := next, state := .waiting, source := source, firstSource := firstSource, count := count, target := target
        firstTarget := firstTarget, fence := none, forcedSequence := none, copied := 0, lost := 0, overtaken := 0
        done := 0, stage := .idle, chunkEpoch := none, outcome := none }
    (¬named → refused .range)
    ∧ (named → ¬ready → refused .slotState)
    ∧ (named → ready → ¬allowed → refused .cls)
    ∧ (named → ready → allowed → ¬inRange → refused .range)
    ∧ (named → ready → allowed → inRange → 8 ≤ s.jobs.queue.length → refused .queueFull)
    ∧ (named → ready → allowed → inRange → s.jobs.queue.length < 8 → s.atRest = true →
      (∀ j ∈ s.jobs.queue, j.number ≠ next) →
      ∃ t, exec c s = .next t ∧ t.jobs.lastNumber = next
        ∧ t.mgmt.response = some { kind := 0x11, number := number, result := .ok, body := le 1 next }
        ∧ t.mgmt.request = none
        ∧ (s.jobs.queue ≠ [] → t.jobs.queue = s.jobs.queue ++ [added]
            ∧ (s.jobs.queue.length + 1 ≠ s.mgmt.setup.warnLevel → t =
                ({ s with jobs := { s.jobs with queue := s.jobs.queue ++ [added], lastNumber := next } } : State).finalAtOnce m
                  { kind := 0x11, number := number, result := .ok, body := le 1 next })
            ∧ (s.jobs.queue.length + 1 = s.mgmt.setup.warnLevel →
                t.mgmt.overflowed = true ∨ ∃ z ∈ t.mgmt.notices, z.kind = .queueWarn ∧ z.subject = none))
        ∧ (s.jobs.queue = [] →
          (s.mgmt.mode ≠ .run → t.jobs.queue = [added])
          ∧ (s.mgmt.mode = .run → (s.disk.healthState = .normal ∨ s.disk.healthState = .warning) →
            1 ≤ s.mgmt.setup.bgLimit →
            ∀ serial sequence, serial = (match g.lastSerial with | none => 0 | some l => (l + 1) % 16) →
            sequence = (g.sequence + 1) % 4294967296 →
            ((8 ≤ g.liveEpochs.length ∨ g.isSweeping serial = true) →
                t.jobs.queue = [{ added with state := .starting }] ∧ t.ring source = g)
            ∧ (g.liveEpochs.length < 8 → g.isSweeping serial = false →
                t.ring source = { g with
                    epochs := g.epochs ++ [⟨serial, sequence, s.clock.minutes, .live⟩]
                    lastSerial := some serial, sequence := sequence, changed := true }
                ∧ ∀ e q, s.reverseLookup source firstSource = some (e, q) →
                    t.jobs.queue = [{ added with
                      state := .running, stage := .read, forcedSequence := some sequence
                      fence := some (match g.liveEpochs.getLast? with | some l => .serial l.serial | none => .noEpoch) }]
                    ∧ t.jobs.reference = some e
                    ∧ (t.jobs.command = some ⟨.read, s.mgmt.setup.first + 256 * q⟩
                        ∨ PortItem.jobCommand .read (s.mgmt.setup.first + 256 * q) ∈ t.sent)))))

/-- JOB-CANCEL (R146, R145): NOT-FOUND without such a job; an ENDING job is left alone; a WAITING or STARTING job, and a RUNNING or PAUSED one with no
command outstanding, leaves the queue with JOB-ENDED and outcome ABORTED; with its command outstanding it becomes ENDING, its burst withdrawn or
discarded. Every result but NOT-FOUND is OK. -/
def Obligations.JobCancelled : Prop :=
  ∀ (s : State) (m : Transfer) (number n : Nat), s.serving m = true →
    let gone : State → Job → Prop := fun t j =>
      (∀ k ∈ t.jobs.queue, k.number ≠ n)
        ∧ (t.mgmt.overflowed = true ∨ ∃ z ∈ t.mgmt.notices, z.kind = .jobEnded ∧ z.subject = some n
            ∧ z.details = .jobEnded .aborted j.done j.copied j.lost j.overtaken)
    ((∀ j ∈ s.jobs.queue, j.number ≠ n) →
      exec (.jobCancel number n) s = .next (s.finalAtOnce m { kind := 0x12, number := number, result := .notFound }))
    ∧ ∀ j ∈ s.jobs.queue, j.number = n → s.jobsOk = true →
      (j.state = .ending → s.atRest = true →
        exec (.jobCancel number n) s = .next (s.finalAtOnce m { kind := 0x12, number := number, result := .ok }))
      ∧ ∃ t, exec (.jobCancel number n) s = .next t
          ∧ t.mgmt.response = some { kind := 0x12, number := number, result := .ok } ∧ t.mgmt.request = none
          ∧ ((j.state = .waiting ∨ j.state = .starting) → gone t j)
          ∧ ((j.state = .running ∨ j.state = .paused) → s.headJob = some j →
            (s.jobOutstanding = false → gone t j)
            ∧ (s.jobOutstanding = true →
                t.headJob = some { j with state := .ending, outcome := some .aborted } ∧ t.jobs.burst = none
                  ∧ t.engine.cancels = 0 ∧ ∀ b, t.engine.burst = some b → b.owner ≠ .job))

/-- EXPORT-OPEN (R150, R151, R82, R156): the tests in their order; accepted, the session is ACTIVE with the transit key held, and in a MOVE the slot is
MOVING with the cursor at its floor; a MOVE with nothing left to move completes at once. The order of the response's fields and their presence
bytes are read from R176 and R166 (log 14); that the response of a MOVE completed at once is those five fields too is the model's choice (log 39). -/
def Obligations.ExportOpened : Prop :=
  ∀ (s : State) (m : Transfer) (number mode n : Nat) (record : KeyRecord), s.serving m = true →
    let c : Instr := .exportOpen number mode n record
    let refused : Result → Prop := fun result =>
      exec c s = .next (s.finalAtOnce m { kind := 0x14, number := number, result := result })
    let r := s.recSlot n
    let named := (mode = 1 ∨ mode = 2) ∧ n ≤ 67
    let finished := n ≤ 63 ∧ r.state = .finished
    (s.mgmt.mode ≠ .run → refused .wrongMode)
    ∧ (s.mgmt.mode = .run →
      (¬named → refused .range)
      ∧ (named →
        (s.session.state ≠ .idle → refused .busy)
        ∧ (s.session.state = .idle →
          (¬finished → refused .slotState)
          ∧ (finished →
            (mode = 2 → r.cls ≠ .free → refused .cls)
            ∧ ((mode = 2 → r.cls = .free) →
              ((field record 0 1 ≠ 1 ∨ record.extractLsb' 384 128 ≠ recordTag record ∨ unwrapRecord record = none) →
                refused .badWrap)
              ∧ ∀ key, unwrapRecord record = some key →
                (mode = 2 → ∃ t, exec c s = .next t
                  ∧ t.keyEntry .transit = some ⟨.transit, key, expandPair key⟩
                  ∧ (∀ o, o ≠ .transit → t.keyEntry o = s.keyEntry o)
                  ∧ { t with keys := s.keys } =
                      ({ s with session :=
                          { state := .active, mode := some .copy, slot := some n, cursor := none, advancePending := false
                            chunksDelivered := 0, keyPresent := true, endCause := none, held := [], heldBack := [] } } : State).finalAtOnce m
                        { kind := 0x14, number := number, result := .ok
                          body := le 1 2 ++ le 1 n ++ le 3 r.length ++ [0] ++ le 3 0 ++ le 3 r.persistedFloor })
                ∧ (mode = 1 → r.floor < r.length → ∃ t, exec c s = .next t
                  ∧ t.keyEntry .transit = some ⟨.transit, key, expandPair key⟩
                  ∧ (∀ o, o ≠ .transit → t.keyEntry o = s.keyEntry o)
                  ∧ { t with keys := s.keys } =
                      (({ s with session :=
                          { state := .active, mode := some .move, slot := some n, cursor := some r.floor
                            advancePending := false, chunksDelivered := 0, keyPresent := true, endCause := none
                            held := [], heldBack := [] } } : State).setRec n { r with state := .moving, changed := true }).finalAtOnce m
                        { kind := 0x14, number := number, result := .ok
                          body := le 1 1 ++ le 1 n ++ le 3 r.length ++ [1] ++ le 3 r.floor ++ le 3 r.persistedFloor })
                ∧ (mode = 1 → r.length ≤ r.floor → ∃ t, exec c s = .next t
                  ∧ t.session.state = .idle ∧ t.session.endCause = some .completed ∧ t.keyEntry .transit = none
                  ∧ t.keyEntry (.slot n) = none ∧ (t.recSlot n).state = .erasing
                  ∧ (t.mgmt.overflowed = true ∨ ∃ z ∈ t.mgmt.notices, z.kind = .moveDone ∧ z.subject = some n)
                  ∧ t.mgmt.request = none
                  ∧ t.mgmt.response = some
                      { kind := 0x14, number := number, result := .ok
                        body := le 1 1 ++ le 1 n ++ le 3 r.length ++ [1] ++ le 3 r.floor ++ le 3 r.persistedFloor }))))))

/-- EXPORT-END (R157): NOT-FOUND without a session; with an ENDING one it waits; an ACTIVE one becomes ENDING, its QUEUED READs leaving the issue
queue, while a READ of the slot is in flight, else NONE with end cause ENDED: the transit key is destroyed, a MOVING slot is FINISHED again with its
floors, MOVE-ENDED is raised, and the request is answered OK. -/
def Obligations.ExportEnded : Prop :=
  ∀ (s : State) (m : Transfer) (number : Nat), s.serving m = true →
    (s.session.state = .idle →
      exec (.exportEnd number) s = .next (s.finalAtOnce m { kind := 0x15, number := number, result := .notFound }))
    ∧ (s.session.state = .ending → exec (.exportEnd number) s = .next (s.leftPending m 0x15 number .exportEnd))
    ∧ (s.session.state = .active → ∀ n, s.session.slot = some n → s.atRest = true →
      let reads : Transfer → Prop := fun u =>
        u.kind = .read ∧ ∃ f ∈ u.fragments, ∃ e, f.entry = some e ∧ (s.extent e).slot = n
      ∃ t, exec (.exportEnd number) s = .next t
        ∧ ((∃ u ∈ s.transfers, u.state ≠ .queued ∧ reads u) →
            t.session.state = .ending ∧ t.session.slot = some n
              ∧ (∀ u ∈ s.transfers, u.state = .queued → reads u → u.tag ∉ t.issueQueue)
              ∧ t.mgmt.request = some { kind := 0x15, number := number, wait := .exportEnd }
              ∧ t.mgmt.response = some { kind := 0x15, number := number, result := .pending })
        ∧ ((∀ u ∈ s.transfers, reads u → u.state = .queued) →
            t.session.state = .idle ∧ t.session.endCause = some .ended ∧ t.session.held = [] ∧ t.session.heldBack = []
              ∧ t.keyEntry .transit = none
              ∧ ((s.recSlot n).state = .moving → (t.recSlot n).state = .finished ∧ (t.recSlot n).changed = true
                  ∧ (t.recSlot n).floor = (s.recSlot n).floor
                  ∧ (t.recSlot n).persistedFloor = (s.recSlot n).persistedFloor)
              ∧ (t.mgmt.overflowed = true ∨ ∃ z ∈ t.mgmt.notices, z.kind = .moveEnded ∧ z.subject = some n)
              ∧ t.mgmt.request = none
              ∧ t.mgmt.response = some { kind := 0x15, number := number, result := .ok }))

/-- LINK-RESTORE (R131, R125): a disk-link reset begins whatever the health state, or the one in progress is joined; the request waits for its end with
the health count and state unchanged; every transfer whose command was outstanding has ended. -/
def Obligations.LinkRestoreBegins : Prop :=
  ∀ (s : State) (m : Transfer) (number : Nat), s.serving m = true →
    (s.disk.link = .resetting → s.atRest = true →
      exec (.linkRestore number) s = .next (s.leftPending m 0x18 number .linkRestore))
    ∧ (s.disk.link ≠ .resetting →
      ∃ t, exec (.linkRestore number) s = .next t ∧ t.disk.link = .resetting ∧ t.disk.resetTicks = 0 ∧ t.disk.speed = none
        ∧ t.disk.outstanding = [] ∧ t.disk.resetSeen = true ∧ t.disk.health = s.disk.health
        ∧ t.disk.healthState = s.disk.healthState
        ∧ (∀ n, s.isOutstanding (.tag n) = true → t.transfer n = none)
        ∧ t.mgmt.request = some { kind := 0x18, number := number, wait := .linkRestore }
        ∧ t.mgmt.response = some { kind := 0x18, number := number, result := .pending })

/-! ### Laws that every step keeps -/

/-- Every step keeps the law of the transfer table (R85, R162): one record a tag, at most one MREQ, a MANAGEMENT transfer holding nothing, and every
list naming disk-bound transfers of the table. -/
def Obligations.TransferLawKept : Prop :=
  ∀ s t : State, s.transfersOk = true → step s = .next t → t.transfersOk = true

/-- Every step keeps, each by itself: the law of the job queue (R134, R133); the canonical form of the tables (log 31); the ranges of the arbiter's
counts, of the health count with its state, and of the notice list (R112, R113, R115, R126, R127, R173). -/
def Obligations.UnitLawsKept : Prop :=
  ∀ s t : State, step s = .next t →
    (s.jobsOk = true → t.jobsOk = true) ∧ (s.tablesOk = true → t.tablesOk = true) ∧ (s.countsOk = true → t.countsOk = true)

/-- Every step keeps, with the law of the transfer table, the law of the issue queue: it names each tag once, and only those of QUEUED transfers
(R88), whose commands are not outstanding (R89); nothing is outstanding unless the link is UP and the port not in CUTOFF (R125, R128). -/
def Obligations.IssueLawKept : Prop :=
  ∀ s t : State, s.transfersOk = true → s.issueOk = true → step s = .next t → t.issueOk = true

/-- Every step keeps: no key of a slot that is EMPTY or ERASING, of an epoch that is SWEEPING, or of a session that is NONE (R83), and at most one key
an owner (R75); no slot is MOVING but that of a MOVE session (R149). -/
def Obligations.KeyLawKept : Prop :=
  ∀ s t : State, step s = .next t → (s.keysOk = true → t.keysOk = true) ∧ (s.sessionOk = true → t.sessionOk = true)

/-- Every step keeps: entries that are VALID or RETIRING are aligned and do not overlap (R12); every VALID entry names a slot that is OPEN, FINISHED,
MOVING or RUNNING (R16), with the law of the transfer table; allocated tag ranges lie in the tag store and are disjoint (R48). -/
def Obligations.MapLawsKept : Prop :=
  ∀ s t : State, step s = .next t →
    (s.extentsDisjoint = true → t.extentsDisjoint = true)
      ∧ (s.transfersOk = true → s.namesOk = true → t.namesOk = true) ∧ (s.rangesOk = true → t.rangesOk = true)

/-- Every step keeps the law of the epochs: at most 8 are LIVE in a ring, and none is LIVE at or beyond its open minute + W (R49, R51). No command but
those of power and loading lowers the minute count (R67). -/
def Obligations.TimeLawsKept : Prop :=
  (∀ s t : State, s.epochsOk = true → step s = .next t → t.epochsOk = true)
    ∧ ∀ (c : Instr) (s t : State), (∀ speed, c ≠ .powerOn speed) → c ≠ .powerLoss → c ≠ .slotLoad →
        s.clock.minutes ≤ 4294967295 → exec c s = .next t → s.clock.minutes ≤ t.clock.minutes

/-- The laws hold right after reset. -/
def Obligations.ResetKeepsLaws : Prop :=
  State.reset.transfersOk = true ∧ State.reset.jobsOk = true ∧ State.reset.tablesOk = true ∧ State.reset.countsOk = true ∧ State.reset.issueOk = true
    ∧ State.reset.keysOk = true ∧ State.reset.sessionOk = true ∧ State.reset.extentsDisjoint = true
    ∧ State.reset.namesOk = true ∧ State.reset.rangesOk = true ∧ State.reset.epochsOk = true

/-- Deciphering undoes enciphering at the same tweak under the same key pair: D(K, t, E(K, t, P)) = P (R79), AES-256 being that of
its standard (log 1). -/
def Obligations.DecipherEncipher : Prop :=
  ∀ (k : XtsPair) (tweak : Nat) (p : Block), decipherBlock k tweak (encipherBlock k tweak p) = p

end
end

