-- ==== Sys2Proof/Laws/State.lean ====
section
/-! SUPPORT. What each update of the state leaves in each field: one lemma per field per update, so that no later proof unfolds a
record update. -/

namespace Sys2Proof.Machine

variable (s : State)

/-! ### setRec -/

@[simp] theorem State.setRec_powered (n : Nat) (r : RecSlot) : (s.setRec n r).powered = s.powered := rfl
@[simp] theorem State.setRec_pending (n : Nat) (r : RecSlot) : (s.setRec n r).pending = s.pending := rfl
@[simp] theorem State.setRec_sent (n : Nat) (r : RecSlot) : (s.setRec n r).sent = s.sent := rfl
@[simp] theorem State.setRec_draws (n : Nat) (r : RecSlot) : (s.setRec n r).draws = s.draws := rfl
@[simp] theorem State.setRec_controllerSpeed (n : Nat) (r : RecSlot) : (s.setRec n r).controllerSpeed = s.controllerSpeed := rfl
@[simp] theorem State.setRec_mgmt (n : Nat) (r : RecSlot) : (s.setRec n r).mgmt = s.mgmt := rfl
@[simp] theorem State.setRec_clock (n : Nat) (r : RecSlot) : (s.setRec n r).clock = s.clock := rfl
@[simp] theorem State.setRec_extents (n : Nat) (r : RecSlot) : (s.setRec n r).extents = s.extents := rfl
@[simp] theorem State.setRec_recs (n : Nat) (r : RecSlot) : (s.setRec n r).recs = Table.put {} s.recs n r := rfl
@[simp] theorem State.setRec_rings (n : Nat) (r : RecSlot) : (s.setRec n r).rings = s.rings := rfl
@[simp] theorem State.setRec_tags (n : Nat) (r : RecSlot) : (s.setRec n r).tags = s.tags := rfl
@[simp] theorem State.setRec_sweepQueue (n : Nat) (r : RecSlot) : (s.setRec n r).sweepQueue = s.sweepQueue := rfl
@[simp] theorem State.setRec_sweep (n : Nat) (r : RecSlot) : (s.setRec n r).sweep = s.sweep := rfl
@[simp] theorem State.setRec_keys (n : Nat) (r : RecSlot) : (s.setRec n r).keys = s.keys := rfl
@[simp] theorem State.setRec_store (n : Nat) (r : RecSlot) : (s.setRec n r).store = s.store := rfl
@[simp] theorem State.setRec_transfers (n : Nat) (r : RecSlot) : (s.setRec n r).transfers = s.transfers := rfl
@[simp] theorem State.setRec_issueQueue (n : Nat) (r : RecSlot) : (s.setRec n r).issueQueue = s.issueQueue := rfl
@[simp] theorem State.setRec_engine (n : Nat) (r : RecSlot) : (s.setRec n r).engine = s.engine := rfl
@[simp] theorem State.setRec_disk (n : Nat) (r : RecSlot) : (s.setRec n r).disk = s.disk := rfl
@[simp] theorem State.setRec_jobs (n : Nat) (r : RecSlot) : (s.setRec n r).jobs = s.jobs := rfl
@[simp] theorem State.setRec_session (n : Nat) (r : RecSlot) : (s.setRec n r).session = s.session := rfl

/-! ### setRing -/

@[simp] theorem State.setRing_powered (n : Nat) (r : RingSlot) : (s.setRing n r).powered = s.powered := rfl
@[simp] theorem State.setRing_pending (n : Nat) (r : RingSlot) : (s.setRing n r).pending = s.pending := rfl
@[simp] theorem State.setRing_sent (n : Nat) (r : RingSlot) : (s.setRing n r).sent = s.sent := rfl
@[simp] theorem State.setRing_draws (n : Nat) (r : RingSlot) : (s.setRing n r).draws = s.draws := rfl
@[simp] theorem State.setRing_controllerSpeed (n : Nat) (r : RingSlot) : (s.setRing n r).controllerSpeed = s.controllerSpeed := rfl
@[simp] theorem State.setRing_mgmt (n : Nat) (r : RingSlot) : (s.setRing n r).mgmt = s.mgmt := rfl
@[simp] theorem State.setRing_clock (n : Nat) (r : RingSlot) : (s.setRing n r).clock = s.clock := rfl
@[simp] theorem State.setRing_extents (n : Nat) (r : RingSlot) : (s.setRing n r).extents = s.extents := rfl
@[simp] theorem State.setRing_recs (n : Nat) (r : RingSlot) : (s.setRing n r).recs = s.recs := rfl
@[simp] theorem State.setRing_rings (n : Nat) (r : RingSlot) : (s.setRing n r).rings = Table.put {} s.rings n r := rfl
@[simp] theorem State.setRing_tags (n : Nat) (r : RingSlot) : (s.setRing n r).tags = s.tags := rfl
@[simp] theorem State.setRing_sweepQueue (n : Nat) (r : RingSlot) : (s.setRing n r).sweepQueue = s.sweepQueue := rfl
@[simp] theorem State.setRing_sweep (n : Nat) (r : RingSlot) : (s.setRing n r).sweep = s.sweep := rfl
@[simp] theorem State.setRing_keys (n : Nat) (r : RingSlot) : (s.setRing n r).keys = s.keys := rfl
@[simp] theorem State.setRing_store (n : Nat) (r : RingSlot) : (s.setRing n r).store = s.store := rfl
@[simp] theorem State.setRing_transfers (n : Nat) (r : RingSlot) : (s.setRing n r).transfers = s.transfers := rfl
@[simp] theorem State.setRing_issueQueue (n : Nat) (r : RingSlot) : (s.setRing n r).issueQueue = s.issueQueue := rfl
@[simp] theorem State.setRing_engine (n : Nat) (r : RingSlot) : (s.setRing n r).engine = s.engine := rfl
@[simp] theorem State.setRing_disk (n : Nat) (r : RingSlot) : (s.setRing n r).disk = s.disk := rfl
@[simp] theorem State.setRing_jobs (n : Nat) (r : RingSlot) : (s.setRing n r).jobs = s.jobs := rfl
@[simp] theorem State.setRing_session (n : Nat) (r : RingSlot) : (s.setRing n r).session = s.session := rfl

/-! ### setExtent -/

@[simp] theorem State.setExtent_powered (i : Nat) (e : Extent) : (s.setExtent i e).powered = s.powered := rfl
@[simp] theorem State.setExtent_pending (i : Nat) (e : Extent) : (s.setExtent i e).pending = s.pending := rfl
@[simp] theorem State.setExtent_sent (i : Nat) (e : Extent) : (s.setExtent i e).sent = s.sent := rfl
@[simp] theorem State.setExtent_draws (i : Nat) (e : Extent) : (s.setExtent i e).draws = s.draws := rfl
@[simp] theorem State.setExtent_controllerSpeed (i : Nat) (e : Extent) : (s.setExtent i e).controllerSpeed = s.controllerSpeed := rfl
@[simp] theorem State.setExtent_mgmt (i : Nat) (e : Extent) : (s.setExtent i e).mgmt = s.mgmt := rfl
@[simp] theorem State.setExtent_clock (i : Nat) (e : Extent) : (s.setExtent i e).clock = s.clock := rfl
@[simp] theorem State.setExtent_extents (i : Nat) (e : Extent) : (s.setExtent i e).extents = Table.put {} s.extents i e := rfl
@[simp] theorem State.setExtent_recs (i : Nat) (e : Extent) : (s.setExtent i e).recs = s.recs := rfl
@[simp] theorem State.setExtent_rings (i : Nat) (e : Extent) : (s.setExtent i e).rings = s.rings := rfl
@[simp] theorem State.setExtent_tags (i : Nat) (e : Extent) : (s.setExtent i e).tags = s.tags := rfl
@[simp] theorem State.setExtent_sweepQueue (i : Nat) (e : Extent) : (s.setExtent i e).sweepQueue = s.sweepQueue := rfl
@[simp] theorem State.setExtent_sweep (i : Nat) (e : Extent) : (s.setExtent i e).sweep = s.sweep := rfl
@[simp] theorem State.setExtent_keys (i : Nat) (e : Extent) : (s.setExtent i e).keys = s.keys := rfl
@[simp] theorem State.setExtent_store (i : Nat) (e : Extent) : (s.setExtent i e).store = s.store := rfl
@[simp] theorem State.setExtent_transfers (i : Nat) (e : Extent) : (s.setExtent i e).transfers = s.transfers := rfl
@[simp] theorem State.setExtent_issueQueue (i : Nat) (e : Extent) : (s.setExtent i e).issueQueue = s.issueQueue := rfl
@[simp] theorem State.setExtent_engine (i : Nat) (e : Extent) : (s.setExtent i e).engine = s.engine := rfl
@[simp] theorem State.setExtent_disk (i : Nat) (e : Extent) : (s.setExtent i e).disk = s.disk := rfl
@[simp] theorem State.setExtent_jobs (i : Nat) (e : Extent) : (s.setExtent i e).jobs = s.jobs := rfl
@[simp] theorem State.setExtent_session (i : Nat) (e : Extent) : (s.setExtent i e).session = s.session := rfl

/-! ### setTag -/

@[simp] theorem State.setTag_powered (i : Nat) (v : Option Nat) : (s.setTag i v).powered = s.powered := rfl
@[simp] theorem State.setTag_pending (i : Nat) (v : Option Nat) : (s.setTag i v).pending = s.pending := rfl
@[simp] theorem State.setTag_sent (i : Nat) (v : Option Nat) : (s.setTag i v).sent = s.sent := rfl
@[simp] theorem State.setTag_draws (i : Nat) (v : Option Nat) : (s.setTag i v).draws = s.draws := rfl
@[simp] theorem State.setTag_controllerSpeed (i : Nat) (v : Option Nat) : (s.setTag i v).controllerSpeed = s.controllerSpeed := rfl
@[simp] theorem State.setTag_mgmt (i : Nat) (v : Option Nat) : (s.setTag i v).mgmt = s.mgmt := rfl
@[simp] theorem State.setTag_clock (i : Nat) (v : Option Nat) : (s.setTag i v).clock = s.clock := rfl
@[simp] theorem State.setTag_extents (i : Nat) (v : Option Nat) : (s.setTag i v).extents = s.extents := rfl
@[simp] theorem State.setTag_recs (i : Nat) (v : Option Nat) : (s.setTag i v).recs = s.recs := rfl
@[simp] theorem State.setTag_rings (i : Nat) (v : Option Nat) : (s.setTag i v).rings = s.rings := rfl
@[simp] theorem State.setTag_tags (i : Nat) (v : Option Nat) : (s.setTag i v).tags = Table.put none s.tags i v := rfl
@[simp] theorem State.setTag_sweepQueue (i : Nat) (v : Option Nat) : (s.setTag i v).sweepQueue = s.sweepQueue := rfl
@[simp] theorem State.setTag_sweep (i : Nat) (v : Option Nat) : (s.setTag i v).sweep = s.sweep := rfl
@[simp] theorem State.setTag_keys (i : Nat) (v : Option Nat) : (s.setTag i v).keys = s.keys := rfl
@[simp] theorem State.setTag_store (i : Nat) (v : Option Nat) : (s.setTag i v).store = s.store := rfl
@[simp] theorem State.setTag_transfers (i : Nat) (v : Option Nat) : (s.setTag i v).transfers = s.transfers := rfl
@[simp] theorem State.setTag_issueQueue (i : Nat) (v : Option Nat) : (s.setTag i v).issueQueue = s.issueQueue := rfl
@[simp] theorem State.setTag_engine (i : Nat) (v : Option Nat) : (s.setTag i v).engine = s.engine := rfl
@[simp] theorem State.setTag_disk (i : Nat) (v : Option Nat) : (s.setTag i v).disk = s.disk := rfl
@[simp] theorem State.setTag_jobs (i : Nat) (v : Option Nat) : (s.setTag i v).jobs = s.jobs := rfl
@[simp] theorem State.setTag_session (i : Nat) (v : Option Nat) : (s.setTag i v).session = s.session := rfl

/-! ### modMgmt -/

@[simp] theorem State.modMgmt_powered (f : Mgmt → Mgmt) : (s.modMgmt f).powered = s.powered := rfl
@[simp] theorem State.modMgmt_pending (f : Mgmt → Mgmt) : (s.modMgmt f).pending = s.pending := rfl
@[simp] theorem State.modMgmt_sent (f : Mgmt → Mgmt) : (s.modMgmt f).sent = s.sent := rfl
@[simp] theorem State.modMgmt_draws (f : Mgmt → Mgmt) : (s.modMgmt f).draws = s.draws := rfl
@[simp] theorem State.modMgmt_controllerSpeed (f : Mgmt → Mgmt) : (s.modMgmt f).controllerSpeed = s.controllerSpeed := rfl
@[simp] theorem State.modMgmt_mgmt (f : Mgmt → Mgmt) : (s.modMgmt f).mgmt = f s.mgmt := rfl
@[simp] theorem State.modMgmt_clock (f : Mgmt → Mgmt) : (s.modMgmt f).clock = s.clock := rfl
@[simp] theorem State.modMgmt_extents (f : Mgmt → Mgmt) : (s.modMgmt f).extents = s.extents := rfl
@[simp] theorem State.modMgmt_recs (f : Mgmt → Mgmt) : (s.modMgmt f).recs = s.recs := rfl
@[simp] theorem State.modMgmt_rings (f : Mgmt → Mgmt) : (s.modMgmt f).rings = s.rings := rfl
@[simp] theorem State.modMgmt_tags (f : Mgmt → Mgmt) : (s.modMgmt f).tags = s.tags := rfl
@[simp] theorem State.modMgmt_sweepQueue (f : Mgmt → Mgmt) : (s.modMgmt f).sweepQueue = s.sweepQueue := rfl
@[simp] theorem State.modMgmt_sweep (f : Mgmt → Mgmt) : (s.modMgmt f).sweep = s.sweep := rfl
@[simp] theorem State.modMgmt_keys (f : Mgmt → Mgmt) : (s.modMgmt f).keys = s.keys := rfl
@[simp] theorem State.modMgmt_store (f : Mgmt → Mgmt) : (s.modMgmt f).store = s.store := rfl
@[simp] theorem State.modMgmt_transfers (f : Mgmt → Mgmt) : (s.modMgmt f).transfers = s.transfers := rfl
@[simp] theorem State.modMgmt_issueQueue (f : Mgmt → Mgmt) : (s.modMgmt f).issueQueue = s.issueQueue := rfl
@[simp] theorem State.modMgmt_engine (f : Mgmt → Mgmt) : (s.modMgmt f).engine = s.engine := rfl
@[simp] theorem State.modMgmt_disk (f : Mgmt → Mgmt) : (s.modMgmt f).disk = s.disk := rfl
@[simp] theorem State.modMgmt_jobs (f : Mgmt → Mgmt) : (s.modMgmt f).jobs = s.jobs := rfl
@[simp] theorem State.modMgmt_session (f : Mgmt → Mgmt) : (s.modMgmt f).session = s.session := rfl

/-! ### modClock -/

@[simp] theorem State.modClock_powered (f : Clock → Clock) : (s.modClock f).powered = s.powered := rfl
@[simp] theorem State.modClock_pending (f : Clock → Clock) : (s.modClock f).pending = s.pending := rfl
@[simp] theorem State.modClock_sent (f : Clock → Clock) : (s.modClock f).sent = s.sent := rfl
@[simp] theorem State.modClock_draws (f : Clock → Clock) : (s.modClock f).draws = s.draws := rfl
@[simp] theorem State.modClock_controllerSpeed (f : Clock → Clock) : (s.modClock f).controllerSpeed = s.controllerSpeed := rfl
@[simp] theorem State.modClock_mgmt (f : Clock → Clock) : (s.modClock f).mgmt = s.mgmt := rfl
@[simp] theorem State.modClock_clock (f : Clock → Clock) : (s.modClock f).clock = f s.clock := rfl
@[simp] theorem State.modClock_extents (f : Clock → Clock) : (s.modClock f).extents = s.extents := rfl
@[simp] theorem State.modClock_recs (f : Clock → Clock) : (s.modClock f).recs = s.recs := rfl
@[simp] theorem State.modClock_rings (f : Clock → Clock) : (s.modClock f).rings = s.rings := rfl
@[simp] theorem State.modClock_tags (f : Clock → Clock) : (s.modClock f).tags = s.tags := rfl
@[simp] theorem State.modClock_sweepQueue (f : Clock → Clock) : (s.modClock f).sweepQueue = s.sweepQueue := rfl
@[simp] theorem State.modClock_sweep (f : Clock → Clock) : (s.modClock f).sweep = s.sweep := rfl
@[simp] theorem State.modClock_keys (f : Clock → Clock) : (s.modClock f).keys = s.keys := rfl
@[simp] theorem State.modClock_store (f : Clock → Clock) : (s.modClock f).store = s.store := rfl
@[simp] theorem State.modClock_transfers (f : Clock → Clock) : (s.modClock f).transfers = s.transfers := rfl
@[simp] theorem State.modClock_issueQueue (f : Clock → Clock) : (s.modClock f).issueQueue = s.issueQueue := rfl
@[simp] theorem State.modClock_engine (f : Clock → Clock) : (s.modClock f).engine = s.engine := rfl
@[simp] theorem State.modClock_disk (f : Clock → Clock) : (s.modClock f).disk = s.disk := rfl
@[simp] theorem State.modClock_jobs (f : Clock → Clock) : (s.modClock f).jobs = s.jobs := rfl
@[simp] theorem State.modClock_session (f : Clock → Clock) : (s.modClock f).session = s.session := rfl

/-! ### modStore -/

@[simp] theorem State.modStore_powered (f : SlotStore → SlotStore) : (s.modStore f).powered = s.powered := rfl
@[simp] theorem State.modStore_pending (f : SlotStore → SlotStore) : (s.modStore f).pending = s.pending := rfl
@[simp] theorem State.modStore_sent (f : SlotStore → SlotStore) : (s.modStore f).sent = s.sent := rfl
@[simp] theorem State.modStore_draws (f : SlotStore → SlotStore) : (s.modStore f).draws = s.draws := rfl
@[simp] theorem State.modStore_controllerSpeed (f : SlotStore → SlotStore) : (s.modStore f).controllerSpeed = s.controllerSpeed := rfl
@[simp] theorem State.modStore_mgmt (f : SlotStore → SlotStore) : (s.modStore f).mgmt = s.mgmt := rfl
@[simp] theorem State.modStore_clock (f : SlotStore → SlotStore) : (s.modStore f).clock = s.clock := rfl
@[simp] theorem State.modStore_extents (f : SlotStore → SlotStore) : (s.modStore f).extents = s.extents := rfl
@[simp] theorem State.modStore_recs (f : SlotStore → SlotStore) : (s.modStore f).recs = s.recs := rfl
@[simp] theorem State.modStore_rings (f : SlotStore → SlotStore) : (s.modStore f).rings = s.rings := rfl
@[simp] theorem State.modStore_tags (f : SlotStore → SlotStore) : (s.modStore f).tags = s.tags := rfl
@[simp] theorem State.modStore_sweepQueue (f : SlotStore → SlotStore) : (s.modStore f).sweepQueue = s.sweepQueue := rfl
@[simp] theorem State.modStore_sweep (f : SlotStore → SlotStore) : (s.modStore f).sweep = s.sweep := rfl
@[simp] theorem State.modStore_keys (f : SlotStore → SlotStore) : (s.modStore f).keys = s.keys := rfl
@[simp] theorem State.modStore_store (f : SlotStore → SlotStore) : (s.modStore f).store = f s.store := rfl
@[simp] theorem State.modStore_transfers (f : SlotStore → SlotStore) : (s.modStore f).transfers = s.transfers := rfl
@[simp] theorem State.modStore_issueQueue (f : SlotStore → SlotStore) : (s.modStore f).issueQueue = s.issueQueue := rfl
@[simp] theorem State.modStore_engine (f : SlotStore → SlotStore) : (s.modStore f).engine = s.engine := rfl
@[simp] theorem State.modStore_disk (f : SlotStore → SlotStore) : (s.modStore f).disk = s.disk := rfl
@[simp] theorem State.modStore_jobs (f : SlotStore → SlotStore) : (s.modStore f).jobs = s.jobs := rfl
@[simp] theorem State.modStore_session (f : SlotStore → SlotStore) : (s.modStore f).session = s.session := rfl

/-! ### modEngine -/

@[simp] theorem State.modEngine_powered (f : Engine → Engine) : (s.modEngine f).powered = s.powered := rfl
@[simp] theorem State.modEngine_pending (f : Engine → Engine) : (s.modEngine f).pending = s.pending := rfl
@[simp] theorem State.modEngine_sent (f : Engine → Engine) : (s.modEngine f).sent = s.sent := rfl
@[simp] theorem State.modEngine_draws (f : Engine → Engine) : (s.modEngine f).draws = s.draws := rfl
@[simp] theorem State.modEngine_controllerSpeed (f : Engine → Engine) : (s.modEngine f).controllerSpeed = s.controllerSpeed := rfl
@[simp] theorem State.modEngine_mgmt (f : Engine → Engine) : (s.modEngine f).mgmt = s.mgmt := rfl
@[simp] theorem State.modEngine_clock (f : Engine → Engine) : (s.modEngine f).clock = s.clock := rfl
@[simp] theorem State.modEngine_extents (f : Engine → Engine) : (s.modEngine f).extents = s.extents := rfl
@[simp] theorem State.modEngine_recs (f : Engine → Engine) : (s.modEngine f).recs = s.recs := rfl
@[simp] theorem State.modEngine_rings (f : Engine → Engine) : (s.modEngine f).rings = s.rings := rfl
@[simp] theorem State.modEngine_tags (f : Engine → Engine) : (s.modEngine f).tags = s.tags := rfl
@[simp] theorem State.modEngine_sweepQueue (f : Engine → Engine) : (s.modEngine f).sweepQueue = s.sweepQueue := rfl
@[simp] theorem State.modEngine_sweep (f : Engine → Engine) : (s.modEngine f).sweep = s.sweep := rfl
@[simp] theorem State.modEngine_keys (f : Engine → Engine) : (s.modEngine f).keys = s.keys := rfl
@[simp] theorem State.modEngine_store (f : Engine → Engine) : (s.modEngine f).store = s.store := rfl
@[simp] theorem State.modEngine_transfers (f : Engine → Engine) : (s.modEngine f).transfers = s.transfers := rfl
@[simp] theorem State.modEngine_issueQueue (f : Engine → Engine) : (s.modEngine f).issueQueue = s.issueQueue := rfl
@[simp] theorem State.modEngine_engine (f : Engine → Engine) : (s.modEngine f).engine = f s.engine := rfl
@[simp] theorem State.modEngine_disk (f : Engine → Engine) : (s.modEngine f).disk = s.disk := rfl
@[simp] theorem State.modEngine_jobs (f : Engine → Engine) : (s.modEngine f).jobs = s.jobs := rfl
@[simp] theorem State.modEngine_session (f : Engine → Engine) : (s.modEngine f).session = s.session := rfl

/-! ### modDisk -/

@[simp] theorem State.modDisk_powered (f : DiskPort → DiskPort) : (s.modDisk f).powered = s.powered := rfl
@[simp] theorem State.modDisk_pending (f : DiskPort → DiskPort) : (s.modDisk f).pending = s.pending := rfl
@[simp] theorem State.modDisk_sent (f : DiskPort → DiskPort) : (s.modDisk f).sent = s.sent := rfl
@[simp] theorem State.modDisk_draws (f : DiskPort → DiskPort) : (s.modDisk f).draws = s.draws := rfl
@[simp] theorem State.modDisk_controllerSpeed (f : DiskPort → DiskPort) : (s.modDisk f).controllerSpeed = s.controllerSpeed := rfl
@[simp] theorem State.modDisk_mgmt (f : DiskPort → DiskPort) : (s.modDisk f).mgmt = s.mgmt := rfl
@[simp] theorem State.modDisk_clock (f : DiskPort → DiskPort) : (s.modDisk f).clock = s.clock := rfl
@[simp] theorem State.modDisk_extents (f : DiskPort → DiskPort) : (s.modDisk f).extents = s.extents := rfl
@[simp] theorem State.modDisk_recs (f : DiskPort → DiskPort) : (s.modDisk f).recs = s.recs := rfl
@[simp] theorem State.modDisk_rings (f : DiskPort → DiskPort) : (s.modDisk f).rings = s.rings := rfl
@[simp] theorem State.modDisk_tags (f : DiskPort → DiskPort) : (s.modDisk f).tags = s.tags := rfl
@[simp] theorem State.modDisk_sweepQueue (f : DiskPort → DiskPort) : (s.modDisk f).sweepQueue = s.sweepQueue := rfl
@[simp] theorem State.modDisk_sweep (f : DiskPort → DiskPort) : (s.modDisk f).sweep = s.sweep := rfl
@[simp] theorem State.modDisk_keys (f : DiskPort → DiskPort) : (s.modDisk f).keys = s.keys := rfl
@[simp] theorem State.modDisk_store (f : DiskPort → DiskPort) : (s.modDisk f).store = s.store := rfl
@[simp] theorem State.modDisk_transfers (f : DiskPort → DiskPort) : (s.modDisk f).transfers = s.transfers := rfl
@[simp] theorem State.modDisk_issueQueue (f : DiskPort → DiskPort) : (s.modDisk f).issueQueue = s.issueQueue := rfl
@[simp] theorem State.modDisk_engine (f : DiskPort → DiskPort) : (s.modDisk f).engine = s.engine := rfl
@[simp] theorem State.modDisk_disk (f : DiskPort → DiskPort) : (s.modDisk f).disk = f s.disk := rfl
@[simp] theorem State.modDisk_jobs (f : DiskPort → DiskPort) : (s.modDisk f).jobs = s.jobs := rfl
@[simp] theorem State.modDisk_session (f : DiskPort → DiskPort) : (s.modDisk f).session = s.session := rfl

/-! ### modJobs -/

@[simp] theorem State.modJobs_powered (f : JobUnit → JobUnit) : (s.modJobs f).powered = s.powered := rfl
@[simp] theorem State.modJobs_pending (f : JobUnit → JobUnit) : (s.modJobs f).pending = s.pending := rfl
@[simp] theorem State.modJobs_sent (f : JobUnit → JobUnit) : (s.modJobs f).sent = s.sent := rfl
@[simp] theorem State.modJobs_draws (f : JobUnit → JobUnit) : (s.modJobs f).draws = s.draws := rfl
@[simp] theorem State.modJobs_controllerSpeed (f : JobUnit → JobUnit) : (s.modJobs f).controllerSpeed = s.controllerSpeed := rfl
@[simp] theorem State.modJobs_mgmt (f : JobUnit → JobUnit) : (s.modJobs f).mgmt = s.mgmt := rfl
@[simp] theorem State.modJobs_clock (f : JobUnit → JobUnit) : (s.modJobs f).clock = s.clock := rfl
@[simp] theorem State.modJobs_extents (f : JobUnit → JobUnit) : (s.modJobs f).extents = s.extents := rfl
@[simp] theorem State.modJobs_recs (f : JobUnit → JobUnit) : (s.modJobs f).recs = s.recs := rfl
@[simp] theorem State.modJobs_rings (f : JobUnit → JobUnit) : (s.modJobs f).rings = s.rings := rfl
@[simp] theorem State.modJobs_tags (f : JobUnit → JobUnit) : (s.modJobs f).tags = s.tags := rfl
@[simp] theorem State.modJobs_sweepQueue (f : JobUnit → JobUnit) : (s.modJobs f).sweepQueue = s.sweepQueue := rfl
@[simp] theorem State.modJobs_sweep (f : JobUnit → JobUnit) : (s.modJobs f).sweep = s.sweep := rfl
@[simp] theorem State.modJobs_keys (f : JobUnit → JobUnit) : (s.modJobs f).keys = s.keys := rfl
@[simp] theorem State.modJobs_store (f : JobUnit → JobUnit) : (s.modJobs f).store = s.store := rfl
@[simp] theorem State.modJobs_transfers (f : JobUnit → JobUnit) : (s.modJobs f).transfers = s.transfers := rfl
@[simp] theorem State.modJobs_issueQueue (f : JobUnit → JobUnit) : (s.modJobs f).issueQueue = s.issueQueue := rfl
@[simp] theorem State.modJobs_engine (f : JobUnit → JobUnit) : (s.modJobs f).engine = s.engine := rfl
@[simp] theorem State.modJobs_disk (f : JobUnit → JobUnit) : (s.modJobs f).disk = s.disk := rfl
@[simp] theorem State.modJobs_jobs (f : JobUnit → JobUnit) : (s.modJobs f).jobs = f s.jobs := rfl
@[simp] theorem State.modJobs_session (f : JobUnit → JobUnit) : (s.modJobs f).session = s.session := rfl

/-! ### modSession -/

@[simp] theorem State.modSession_powered (f : Session → Session) : (s.modSession f).powered = s.powered := rfl
@[simp] theorem State.modSession_pending (f : Session → Session) : (s.modSession f).pending = s.pending := rfl
@[simp] theorem State.modSession_sent (f : Session → Session) : (s.modSession f).sent = s.sent := rfl
@[simp] theorem State.modSession_draws (f : Session → Session) : (s.modSession f).draws = s.draws := rfl
@[simp] theorem State.modSession_controllerSpeed (f : Session → Session) : (s.modSession f).controllerSpeed = s.controllerSpeed := rfl
@[simp] theorem State.modSession_mgmt (f : Session → Session) : (s.modSession f).mgmt = s.mgmt := rfl
@[simp] theorem State.modSession_clock (f : Session → Session) : (s.modSession f).clock = s.clock := rfl
@[simp] theorem State.modSession_extents (f : Session → Session) : (s.modSession f).extents = s.extents := rfl
@[simp] theorem State.modSession_recs (f : Session → Session) : (s.modSession f).recs = s.recs := rfl
@[simp] theorem State.modSession_rings (f : Session → Session) : (s.modSession f).rings = s.rings := rfl
@[simp] theorem State.modSession_tags (f : Session → Session) : (s.modSession f).tags = s.tags := rfl
@[simp] theorem State.modSession_sweepQueue (f : Session → Session) : (s.modSession f).sweepQueue = s.sweepQueue := rfl
@[simp] theorem State.modSession_sweep (f : Session → Session) : (s.modSession f).sweep = s.sweep := rfl
@[simp] theorem State.modSession_keys (f : Session → Session) : (s.modSession f).keys = s.keys := rfl
@[simp] theorem State.modSession_store (f : Session → Session) : (s.modSession f).store = s.store := rfl
@[simp] theorem State.modSession_transfers (f : Session → Session) : (s.modSession f).transfers = s.transfers := rfl
@[simp] theorem State.modSession_issueQueue (f : Session → Session) : (s.modSession f).issueQueue = s.issueQueue := rfl
@[simp] theorem State.modSession_engine (f : Session → Session) : (s.modSession f).engine = s.engine := rfl
@[simp] theorem State.modSession_disk (f : Session → Session) : (s.modSession f).disk = s.disk := rfl
@[simp] theorem State.modSession_jobs (f : Session → Session) : (s.modSession f).jobs = s.jobs := rfl
@[simp] theorem State.modSession_session (f : Session → Session) : (s.modSession f).session = f s.session := rfl

/-! ### setTransfers -/

@[simp] theorem State.setTransfers_powered (l : List Transfer) : (s.setTransfers l).powered = s.powered := rfl
@[simp] theorem State.setTransfers_pending (l : List Transfer) : (s.setTransfers l).pending = s.pending := rfl
@[simp] theorem State.setTransfers_sent (l : List Transfer) : (s.setTransfers l).sent = s.sent := rfl
@[simp] theorem State.setTransfers_draws (l : List Transfer) : (s.setTransfers l).draws = s.draws := rfl
@[simp] theorem State.setTransfers_controllerSpeed (l : List Transfer) : (s.setTransfers l).controllerSpeed = s.controllerSpeed := rfl
@[simp] theorem State.setTransfers_mgmt (l : List Transfer) : (s.setTransfers l).mgmt = s.mgmt := rfl
@[simp] theorem State.setTransfers_clock (l : List Transfer) : (s.setTransfers l).clock = s.clock := rfl
@[simp] theorem State.setTransfers_extents (l : List Transfer) : (s.setTransfers l).extents = s.extents := rfl
@[simp] theorem State.setTransfers_recs (l : List Transfer) : (s.setTransfers l).recs = s.recs := rfl
@[simp] theorem State.setTransfers_rings (l : List Transfer) : (s.setTransfers l).rings = s.rings := rfl
@[simp] theorem State.setTransfers_tags (l : List Transfer) : (s.setTransfers l).tags = s.tags := rfl
@[simp] theorem State.setTransfers_sweepQueue (l : List Transfer) : (s.setTransfers l).sweepQueue = s.sweepQueue := rfl
@[simp] theorem State.setTransfers_sweep (l : List Transfer) : (s.setTransfers l).sweep = s.sweep := rfl
@[simp] theorem State.setTransfers_keys (l : List Transfer) : (s.setTransfers l).keys = s.keys := rfl
@[simp] theorem State.setTransfers_store (l : List Transfer) : (s.setTransfers l).store = s.store := rfl
@[simp] theorem State.setTransfers_transfers (l : List Transfer) : (s.setTransfers l).transfers = l := rfl
@[simp] theorem State.setTransfers_issueQueue (l : List Transfer) : (s.setTransfers l).issueQueue = s.issueQueue := rfl
@[simp] theorem State.setTransfers_engine (l : List Transfer) : (s.setTransfers l).engine = s.engine := rfl
@[simp] theorem State.setTransfers_disk (l : List Transfer) : (s.setTransfers l).disk = s.disk := rfl
@[simp] theorem State.setTransfers_jobs (l : List Transfer) : (s.setTransfers l).jobs = s.jobs := rfl
@[simp] theorem State.setTransfers_session (l : List Transfer) : (s.setTransfers l).session = s.session := rfl

/-! ### setIssueQueue -/

@[simp] theorem State.setIssueQueue_powered (l : List Nat) : (s.setIssueQueue l).powered = s.powered := rfl
@[simp] theorem State.setIssueQueue_pending (l : List Nat) : (s.setIssueQueue l).pending = s.pending := rfl
@[simp] theorem State.setIssueQueue_sent (l : List Nat) : (s.setIssueQueue l).sent = s.sent := rfl
@[simp] theorem State.setIssueQueue_draws (l : List Nat) : (s.setIssueQueue l).draws = s.draws := rfl
@[simp] theorem State.setIssueQueue_controllerSpeed (l : List Nat) : (s.setIssueQueue l).controllerSpeed = s.controllerSpeed := rfl
@[simp] theorem State.setIssueQueue_mgmt (l : List Nat) : (s.setIssueQueue l).mgmt = s.mgmt := rfl
@[simp] theorem State.setIssueQueue_clock (l : List Nat) : (s.setIssueQueue l).clock = s.clock := rfl
@[simp] theorem State.setIssueQueue_extents (l : List Nat) : (s.setIssueQueue l).extents = s.extents := rfl
@[simp] theorem State.setIssueQueue_recs (l : List Nat) : (s.setIssueQueue l).recs = s.recs := rfl
@[simp] theorem State.setIssueQueue_rings (l : List Nat) : (s.setIssueQueue l).rings = s.rings := rfl
@[simp] theorem State.setIssueQueue_tags (l : List Nat) : (s.setIssueQueue l).tags = s.tags := rfl
@[simp] theorem State.setIssueQueue_sweepQueue (l : List Nat) : (s.setIssueQueue l).sweepQueue = s.sweepQueue := rfl
@[simp] theorem State.setIssueQueue_sweep (l : List Nat) : (s.setIssueQueue l).sweep = s.sweep := rfl
@[simp] theorem State.setIssueQueue_keys (l : List Nat) : (s.setIssueQueue l).keys = s.keys := rfl
@[simp] theorem State.setIssueQueue_store (l : List Nat) : (s.setIssueQueue l).store = s.store := rfl
@[simp] theorem State.setIssueQueue_transfers (l : List Nat) : (s.setIssueQueue l).transfers = s.transfers := rfl
@[simp] theorem State.setIssueQueue_issueQueue (l : List Nat) : (s.setIssueQueue l).issueQueue = l := rfl
@[simp] theorem State.setIssueQueue_engine (l : List Nat) : (s.setIssueQueue l).engine = s.engine := rfl
@[simp] theorem State.setIssueQueue_disk (l : List Nat) : (s.setIssueQueue l).disk = s.disk := rfl
@[simp] theorem State.setIssueQueue_jobs (l : List Nat) : (s.setIssueQueue l).jobs = s.jobs := rfl
@[simp] theorem State.setIssueQueue_session (l : List Nat) : (s.setIssueQueue l).session = s.session := rfl

/-! ### setKeys -/

@[simp] theorem State.setKeys_powered (l : List KeyEntry) : (s.setKeys l).powered = s.powered := rfl
@[simp] theorem State.setKeys_pending (l : List KeyEntry) : (s.setKeys l).pending = s.pending := rfl
@[simp] theorem State.setKeys_sent (l : List KeyEntry) : (s.setKeys l).sent = s.sent := rfl
@[simp] theorem State.setKeys_draws (l : List KeyEntry) : (s.setKeys l).draws = s.draws := rfl
@[simp] theorem State.setKeys_controllerSpeed (l : List KeyEntry) : (s.setKeys l).controllerSpeed = s.controllerSpeed := rfl
@[simp] theorem State.setKeys_mgmt (l : List KeyEntry) : (s.setKeys l).mgmt = s.mgmt := rfl
@[simp] theorem State.setKeys_clock (l : List KeyEntry) : (s.setKeys l).clock = s.clock := rfl
@[simp] theorem State.setKeys_extents (l : List KeyEntry) : (s.setKeys l).extents = s.extents := rfl
@[simp] theorem State.setKeys_recs (l : List KeyEntry) : (s.setKeys l).recs = s.recs := rfl
@[simp] theorem State.setKeys_rings (l : List KeyEntry) : (s.setKeys l).rings = s.rings := rfl
@[simp] theorem State.setKeys_tags (l : List KeyEntry) : (s.setKeys l).tags = s.tags := rfl
@[simp] theorem State.setKeys_sweepQueue (l : List KeyEntry) : (s.setKeys l).sweepQueue = s.sweepQueue := rfl
@[simp] theorem State.setKeys_sweep (l : List KeyEntry) : (s.setKeys l).sweep = s.sweep := rfl
@[simp] theorem State.setKeys_keys (l : List KeyEntry) : (s.setKeys l).keys = l := rfl
@[simp] theorem State.setKeys_store (l : List KeyEntry) : (s.setKeys l).store = s.store := rfl
@[simp] theorem State.setKeys_transfers (l : List KeyEntry) : (s.setKeys l).transfers = s.transfers := rfl
@[simp] theorem State.setKeys_issueQueue (l : List KeyEntry) : (s.setKeys l).issueQueue = s.issueQueue := rfl
@[simp] theorem State.setKeys_engine (l : List KeyEntry) : (s.setKeys l).engine = s.engine := rfl
@[simp] theorem State.setKeys_disk (l : List KeyEntry) : (s.setKeys l).disk = s.disk := rfl
@[simp] theorem State.setKeys_jobs (l : List KeyEntry) : (s.setKeys l).jobs = s.jobs := rfl
@[simp] theorem State.setKeys_session (l : List KeyEntry) : (s.setKeys l).session = s.session := rfl

/-! ### setSweeps -/

@[simp] theorem State.setSweeps_powered (w : Option RunningSweep) (q : List Sweep) : (s.setSweeps w q).powered = s.powered := rfl
@[simp] theorem State.setSweeps_pending (w : Option RunningSweep) (q : List Sweep) : (s.setSweeps w q).pending = s.pending := rfl
@[simp] theorem State.setSweeps_sent (w : Option RunningSweep) (q : List Sweep) : (s.setSweeps w q).sent = s.sent := rfl
@[simp] theorem State.setSweeps_draws (w : Option RunningSweep) (q : List Sweep) : (s.setSweeps w q).draws = s.draws := rfl
@[simp] theorem State.setSweeps_controllerSpeed (w : Option RunningSweep) (q : List Sweep) : (s.setSweeps w q).controllerSpeed = s.controllerSpeed := rfl
@[simp] theorem State.setSweeps_mgmt (w : Option RunningSweep) (q : List Sweep) : (s.setSweeps w q).mgmt = s.mgmt := rfl
@[simp] theorem State.setSweeps_clock (w : Option RunningSweep) (q : List Sweep) : (s.setSweeps w q).clock = s.clock := rfl
@[simp] theorem State.setSweeps_extents (w : Option RunningSweep) (q : List Sweep) : (s.setSweeps w q).extents = s.extents := rfl
@[simp] theorem State.setSweeps_recs (w : Option RunningSweep) (q : List Sweep) : (s.setSweeps w q).recs = s.recs := rfl
@[simp] theorem State.setSweeps_rings (w : Option RunningSweep) (q : List Sweep) : (s.setSweeps w q).rings = s.rings := rfl
@[simp] theorem State.setSweeps_tags (w : Option RunningSweep) (q : List Sweep) : (s.setSweeps w q).tags = s.tags := rfl
@[simp] theorem State.setSweeps_sweepQueue (w : Option RunningSweep) (q : List Sweep) : (s.setSweeps w q).sweepQueue = q := rfl
@[simp] theorem State.setSweeps_sweep (w : Option RunningSweep) (q : List Sweep) : (s.setSweeps w q).sweep = w := rfl
@[simp] theorem State.setSweeps_keys (w : Option RunningSweep) (q : List Sweep) : (s.setSweeps w q).keys = s.keys := rfl
@[simp] theorem State.setSweeps_store (w : Option RunningSweep) (q : List Sweep) : (s.setSweeps w q).store = s.store := rfl
@[simp] theorem State.setSweeps_transfers (w : Option RunningSweep) (q : List Sweep) : (s.setSweeps w q).transfers = s.transfers := rfl
@[simp] theorem State.setSweeps_issueQueue (w : Option RunningSweep) (q : List Sweep) : (s.setSweeps w q).issueQueue = s.issueQueue := rfl
@[simp] theorem State.setSweeps_engine (w : Option RunningSweep) (q : List Sweep) : (s.setSweeps w q).engine = s.engine := rfl
@[simp] theorem State.setSweeps_disk (w : Option RunningSweep) (q : List Sweep) : (s.setSweeps w q).disk = s.disk := rfl
@[simp] theorem State.setSweeps_jobs (w : Option RunningSweep) (q : List Sweep) : (s.setSweeps w q).jobs = s.jobs := rfl
@[simp] theorem State.setSweeps_session (w : Option RunningSweep) (q : List Sweep) : (s.setSweeps w q).session = s.session := rfl

/-! ### emit -/

@[simp] theorem State.emit_powered (x : PortItem) : (s.emit x).powered = s.powered := rfl
@[simp] theorem State.emit_pending (x : PortItem) : (s.emit x).pending = s.pending := rfl
@[simp] theorem State.emit_sent (x : PortItem) : (s.emit x).sent = s.sent ++ [x] := rfl
@[simp] theorem State.emit_draws (x : PortItem) : (s.emit x).draws = s.draws := rfl
@[simp] theorem State.emit_controllerSpeed (x : PortItem) : (s.emit x).controllerSpeed = s.controllerSpeed := rfl
@[simp] theorem State.emit_mgmt (x : PortItem) : (s.emit x).mgmt = s.mgmt := rfl
@[simp] theorem State.emit_clock (x : PortItem) : (s.emit x).clock = s.clock := rfl
@[simp] theorem State.emit_extents (x : PortItem) : (s.emit x).extents = s.extents := rfl
@[simp] theorem State.emit_recs (x : PortItem) : (s.emit x).recs = s.recs := rfl
@[simp] theorem State.emit_rings (x : PortItem) : (s.emit x).rings = s.rings := rfl
@[simp] theorem State.emit_tags (x : PortItem) : (s.emit x).tags = s.tags := rfl
@[simp] theorem State.emit_sweepQueue (x : PortItem) : (s.emit x).sweepQueue = s.sweepQueue := rfl
@[simp] theorem State.emit_sweep (x : PortItem) : (s.emit x).sweep = s.sweep := rfl
@[simp] theorem State.emit_keys (x : PortItem) : (s.emit x).keys = s.keys := rfl
@[simp] theorem State.emit_store (x : PortItem) : (s.emit x).store = s.store := rfl
@[simp] theorem State.emit_transfers (x : PortItem) : (s.emit x).transfers = s.transfers := rfl
@[simp] theorem State.emit_issueQueue (x : PortItem) : (s.emit x).issueQueue = s.issueQueue := rfl
@[simp] theorem State.emit_engine (x : PortItem) : (s.emit x).engine = s.engine := rfl
@[simp] theorem State.emit_disk (x : PortItem) : (s.emit x).disk = s.disk := rfl
@[simp] theorem State.emit_jobs (x : PortItem) : (s.emit x).jobs = s.jobs := rfl
@[simp] theorem State.emit_session (x : PortItem) : (s.emit x).session = s.session := rfl

end Sys2Proof.Machine
end

