-- ==== Sys2Proof/Laws/Table.lean ====
section
/-! SUPPORT. Tables: reading after writing, and the canonical form kept by every write. -/

namespace Sys2Proof.Machine

variable {α : Type}

@[simp] theorem Table.get_nil (d : α) (i : Nat) : Table.get d [] i = d := rfl

/-- An erased index reads as the default. -/
theorem Table.get_erase_self (d : α) (t : Table α) (i : Nat) : Table.get d (Table.erase t i) i = d := by
  induction t with
  | nil => rfl
  | cons p t ih =>
    simp only [Table.erase]
    split
    · exact ih
    · next h => simp [Table.get, h, ih]

/-- An erase leaves the other indices alone. -/
theorem Table.get_erase_ne (d : α) (t : Table α) (i k : Nat) (h : k ≠ i) :
    Table.get d (Table.erase t i) k = Table.get d t k := by
  induction t with
  | nil => rfl
  | cons p t ih =>
    simp only [Table.erase, Table.get]
    split
    · next e => subst e; simp [Ne.symm h, ih]
    · simp [Table.get, ih]

/-- An insert of an index not listed is read back. -/
theorem Table.get_insert_self (d : α) (t : Table α) (i : Nat) (v : α) (h : ∀ p ∈ t, p.1 ≠ i) :
    Table.get d (Table.insert t i v) i = v := by
  induction t with
  | nil => simp [Table.insert, Table.get]
  | cons p t ih =>
    have hp : p.1 ≠ i := h p (by simp)
    simp only [Table.insert]
    split
    · simp [Table.get]
    · simp [Table.get, hp, ih fun q hq => h q (List.mem_cons_of_mem _ hq)]

/-- An insert leaves the other indices alone. -/
theorem Table.get_insert_ne (d : α) (t : Table α) (i k : Nat) (v : α) (h : k ≠ i) :
    Table.get d (Table.insert t i v) k = Table.get d t k := by
  induction t with
  | nil => simp [Table.insert, Table.get, Ne.symm h]
  | cons p t ih =>
    simp only [Table.insert]
    split
    · simp [Table.get, Ne.symm h]
    · simp [Table.get, ih]

/-- No entry of an erased index is left. -/
theorem Table.erase_ne (t : Table α) (i : Nat) : ∀ p ∈ Table.erase t i, p.1 ≠ i := by
  induction t with
  | nil => simp [Table.erase]
  | cons q t ih =>
    simp only [Table.erase]
    split
    · exact ih
    · next h =>
      intro p hp
      rcases List.mem_cons.1 hp with rfl | hp
      · exact h
      · exact ih p hp

/-- Every entry left by an erase was there before. -/
theorem Table.mem_of_mem_erase {t : Table α} {i : Nat} {p : Nat × α} (h : p ∈ Table.erase t i) : p ∈ t := by
  induction t with
  | nil => exact h
  | cons q t ih =>
    simp only [Table.erase] at h
    split at h
    · exact List.mem_cons_of_mem _ (ih h)
    · rcases List.mem_cons.1 h with rfl | h
      · exact List.mem_cons_self
      · exact List.mem_cons_of_mem _ (ih h)

theorem Table.mem_insert {t : Table α} {i : Nat} {v : α} {p : Nat × α} (h : p ∈ Table.insert t i v) :
    p = (i, v) ∨ p ∈ t := by
  induction t with
  | nil => simpa [Table.insert] using h
  | cons q t ih =>
    simp only [Table.insert] at h
    split at h
    · simpa using h
    · rcases List.mem_cons.1 h with rfl | h
      · simp
      · rcases ih h with h | h <;> simp [h]

/-- An index read through a table in canonical form is an entry, or reads as the default. -/
theorem Table.get_mem (d : α) (t : Table α) (i : Nat) : (i, Table.get d t i) ∈ t ∨ Table.get d t i = d := by
  induction t with
  | nil => exact .inr rfl
  | cons p t ih =>
    simp only [Table.get]
    split
    · next h => subst h; exact .inl List.mem_cons_self
    · rcases ih with h | h
      · exact .inl (List.mem_cons_of_mem _ h)
      · exact .inr h

variable [DecidableEq α]

/-- Reading after a write: the value written at its index, the old value elsewhere. -/
theorem Table.get_put (d : α) (t : Table α) (i k : Nat) (v : α) :
    Table.get d (Table.put d t i v) k = if k = i then v else Table.get d t k := by
  unfold Table.put
  by_cases hk : k = i
  · subst hk
    split
    · next h => simp [Table.get_erase_self, h]
    · simp [Table.get_insert_self d _ k v (Table.erase_ne t k)]
  · rw [if_neg hk]
    split
    · rw [Table.get_erase_ne d t i k hk]
    · rw [Table.get_insert_ne d _ i k v hk, Table.get_erase_ne d t i k hk]

@[simp] theorem Table.get_put_self (d : α) (t : Table α) (i : Nat) (v : α) :
    Table.get d (Table.put d t i v) i = v := by simp [Table.get_put]

/-- The canonical form, unfolded for an entry in front. -/
theorem Table.wf_cons (d : α) (p : Nat × α) (t : Table α) :
    Table.wf d (p :: t) = true ↔ p.2 ≠ d ∧ (∀ q ∈ t, p.1 < q.1) ∧ Table.wf d t = true := by
  simp [Table.wf, and_assoc]

theorem Table.wf_erase {d : α} {t : Table α} (i : Nat) (h : Table.wf d t = true) :
    Table.wf d (Table.erase t i) = true := by
  induction t with
  | nil => rfl
  | cons p t ih =>
    obtain ⟨hv, hlt, ht⟩ := (Table.wf_cons d p t).1 h
    simp only [Table.erase]
    split
    · exact ih ht
    · exact (Table.wf_cons d p _).2 ⟨hv, fun q hq => hlt q (Table.mem_of_mem_erase hq), ih ht⟩

theorem Table.wf_insert {d : α} {t : Table α} {i : Nat} {v : α} (hv : v ≠ d) (hi : ∀ p ∈ t, p.1 ≠ i)
    (h : Table.wf d t = true) : Table.wf d (Table.insert t i v) = true := by
  induction t with
  | nil => simpa [Table.insert, Table.wf] using hv
  | cons p t ih =>
    obtain ⟨hp, hlt, ht⟩ := (Table.wf_cons d p t).1 h
    simp only [Table.insert]
    split
    · next hip =>
      refine (Table.wf_cons d _ _).2 ⟨hv, fun q hq => ?_, h⟩
      rcases List.mem_cons.1 hq with rfl | hq
      · exact hip
      · exact Nat.lt_trans hip (hlt q hq)
    · next hip =>
      have hne : p.1 ≠ i := hi p (by simp)
      refine (Table.wf_cons d _ _).2 ⟨hp, fun q hq => ?_, ih (fun q hq => hi q (List.mem_cons_of_mem _ hq)) ht⟩
      rcases Table.mem_insert hq with rfl | hq
      · simp only; omega
      · exact hlt q hq

/-- A write keeps the canonical form. -/
theorem Table.wf_put {d : α} {t : Table α} (i : Nat) (v : α) (h : Table.wf d t = true) :
    Table.wf d (Table.put d t i v) = true := by
  unfold Table.put
  split
  · exact Table.wf_erase i h
  · next hv => exact Table.wf_insert hv (Table.erase_ne t i) (Table.wf_erase i h)

/-- Dropping entries keeps the canonical form (the clearing of tags, R58, R63). -/
theorem Table.wf_filter {d : α} {t : Table α} (p : Nat × α → Bool) (h : Table.wf d t = true) :
    Table.wf d (t.filter p) = true := by
  induction t with
  | nil => rfl
  | cons q t ih =>
    obtain ⟨hv, hlt, ht⟩ := (Table.wf_cons d q t).1 h
    rw [List.filter_cons]
    split
    · exact (Table.wf_cons d q _).2 ⟨hv, fun x hx => hlt x (List.mem_filter.1 hx).1, ih ht⟩
    · exact ih ht

end Sys2Proof.Machine
end

