-- ==== Sys2Proof/Laws/AtRest.lean ====
section
/-! SUPPORT. A part at rest stays as it is when it settles. -/

namespace Sys2Proof.Machine

/-- What `State.atRest` says, part by part. -/
theorem State.atRest_iff (s : State) : s.atRest = true ↔
    (∀ t ∈ s.transfers, t.ready = false ∧ s.canRequest t = false ∧ s.dueToJoin t = false) ∧ s.jobs.burst = none
      ∧ s.jobStep = none
      ∧ s.session.slot.any s.sessionOver = false ∧ s.drained = false
      ∧ (s.mayIssue = false ∨ (s.issueQueue = [] ∧ s.issuableJob = none))
      ∧ (∀ x ∈ s.recs, !(x.2.state = .erasing && x.2.erased && !s.named x.1))
      ∧ (∀ x ∈ s.rings, !(x.2.state = .erasing && !s.named x.1))
      ∧ (s.store.writer.isSome = true ∨ s.store.queue = []) ∧ s.mgmt.loading ≠ .draining
      ∧ (s.sweep.isSome = true ∨ s.sweepQueue = []) := by
  simp [State.atRest, and_assoc]

/-- With no burst ready and none that can be requested, the arbiter grants nothing. -/
theorem State.grant_atRest (s : State) (h : ∀ t ∈ s.transfers, t.ready = false ∧ s.canRequest t = false ∧ s.dueToJoin t = false)
    (hb : s.jobs.burst = none) : s.grant = s := by
  have hr : s.raiseRequests = s := by
    unfold State.raiseRequests
    rw [if_neg]
    simp only [List.any_eq_true, not_exists, not_and]
    intro t ht
    simp [(h t ht).2.1]
  have hn : s.nextReady = none := by
    unfold State.nextReady
    rw [List.findSome?_eq_none_iff]
    intro i _
    rw [List.find?_eq_none]
    intro t ht
    simp [(h t ht).1]
  have hc : s.chooseGrant = none := by simp [State.chooseGrant, hb, hn]
  unfold State.grant State.grantBound
  simp only [State.grantLoop, hr, hc]
  split <;> rfl

theorem State.jobRun_atRest (s : State) (h : s.jobStep = none) : s.jobRun = s := by
  unfold State.jobRun State.jobBound
  simp only [State.jobLoop, h]

theorem State.finishSession_atRest (s : State) (h : s.session.slot.any s.sessionOver = false) : s.finishSession = s := by
  unfold State.finishSession
  split
  · rfl
  · next n hn =>
    rw [hn] at h
    rw [if_neg (by rw [show s.sessionOver n = false from h]; exact Bool.false_ne_true)]

theorem State.drainEnd_atRest (s : State) (h : s.drained = false) : s.drainEnd = s := by
  unfold State.drainEnd
  rw [if_neg (by rw [h]; exact Bool.false_ne_true)]

theorem State.joinReleased_atRest (s : State) (h : ∀ t ∈ s.transfers, s.dueToJoin t = false) : s.joinReleased = s := by
  unfold State.joinReleased
  rw [List.filter_eq_nil_iff.2 fun t ht => by simp [h t ht]]
  simp [State.setIssueQueue]

theorem State.issueAll_atRest (s : State)
    (h : s.mayIssue = false ∨ (s.issueQueue = [] ∧ s.issuableJob = none)) : s.issueAll = s := by
  unfold State.issueAll
  simp only [State.issueLoop]
  rcases h with h | ⟨h1, h2⟩
  · simp [h]
  · simp [h1, h2]

/-- A recording slot record is an entry of the table or EMPTY. -/
theorem State.recSlot_cases (s : State) (n : Nat) : (n, s.recSlot n) ∈ s.recs ∨ s.recSlot n = {} :=
  Table.get_mem ({} : RecSlot) s.recs n

/-- A ring slot record is an entry of the table or EMPTY. -/
theorem State.ring_cases (s : State) (n : Nat) : (n, s.ring n) ∈ s.rings ∨ s.ring n = {} :=
  Table.get_mem ({} : RingSlot) s.rings n

theorem foldl_fixed {α β : Type} (f : β → α → β) (b : β) (l : List α) (h : ∀ a, f b a = b) :
    l.foldl f b = b := by
  induction l with
  | nil => rfl
  | cons a l ih => simp [h, ih]

theorem State.emptySlots_atRest (s : State)
    (hr : ∀ x ∈ s.recs, !(x.2.state = .erasing && x.2.erased && !s.named x.1))
    (hg : ∀ x ∈ s.rings, !(x.2.state = .erasing && !s.named x.1)) : s.emptySlots = s := by
  have h1 : ∀ n, s.emptyRec n = s := by
    intro n
    unfold State.emptyRec
    have : ((s.recSlot n).state = .erasing && (s.recSlot n).erased && !s.named n) = false := by
      rcases s.recSlot_cases n with h | h
      · have := hr _ h; rw [Bool.not_eq_true'] at this; exact this
      · simp [h]
    simp [this]
  have h2 : ∀ n, s.emptyRing n = s := by
    intro n
    unfold State.emptyRing
    have : ((s.ring n).state = .erasing && !s.named n) = false := by
      rcases s.ring_cases n with h | h
      · have := hg _ h; rw [Bool.not_eq_true'] at this; exact this
      · simp [h]
    simp [this]
  unfold State.emptySlots
  rw [foldl_fixed _ _ _ h1, foldl_fixed _ _ _ h2]

theorem State.beginWrite_atRest (s : State) (h : s.store.writer.isSome = true ∨ s.store.queue = []) :
    s.beginWrite = s := by
  unfold State.beginWrite
  split
  · next hw hq => rcases h with h | h <;> simp_all
  · rfl

theorem State.beginReload_atRest (s : State) (h : s.mgmt.loading ≠ .draining) : s.beginReload = s := by
  unfold State.beginReload
  rw [if_neg]; simp [h]

theorem State.beginSweep_atRest (s : State) (h : s.sweep.isSome = true ∨ s.sweepQueue = []) :
    s.beginSweep = s := by
  unfold State.beginSweep
  split
  · next hw hq => rcases h with h | h <;> simp_all
  · rfl

/-- A part at rest settles to itself. -/
theorem State.settle_atRest (s : State) (h : s.atRest = true) : s.settle = s := by
  obtain ⟨h1, h2, h3, h4, h5, h6, h7, h8, h9, h10, h11⟩ := s.atRest_iff.1 h
  unfold State.settle
  rw [s.grant_atRest h1 h2, s.jobRun_atRest h3, s.grant_atRest h1 h2, s.finishSession_atRest h4, s.drainEnd_atRest h5,
    s.joinReleased_atRest fun t ht => (h1 t ht).2.2, s.issueAll_atRest h6, s.emptySlots_atRest h7 h8, s.beginWrite_atRest h9,
    s.beginReload_atRest h10, s.beginSweep_atRest h11]

end Sys2Proof.Machine
end

