-- ==== Sys2Proof/Laws/Cipher.lean ====
section
/-! SUPPORT. Deciphering sixteen bytes with AES-256 undoes enciphering them, and unwrapping a key undoes wrapping it. -/

namespace Sys2Proof.Machine

theorem xor_cancel {w : Nat} (a b : BitVec w) : a ^^^ (a ^^^ b) = b := by
  rw [← BitVec.xor_assoc, BitVec.xor_self, BitVec.zero_xor]

theorem xor_cancel_right {w : Nat} (a b : BitVec w) : a ^^^ b ^^^ b = a := by
  rw [BitVec.xor_assoc, BitVec.xor_self, BitVec.xor_zero]

theorem xor_left_comm {w : Nat} (a b c : BitVec w) : a ^^^ (b ^^^ c) = b ^^^ (a ^^^ c) := by
  rw [← BitVec.xor_assoc, BitVec.xor_comm a b, BitVec.xor_assoc]

theorem invSubByte_subByte (x : Byte) : invSubByte (subByte x) = x := by
  revert x; decide +kernel

/-- Multiplication by x is additive. -/
theorem xtime_xor (a b : Byte) : xtime (a ^^^ b) = xtime a ^^^ xtime b := by
  unfold xtime
  rw [BitVec.shiftLeft_xor_distrib, BitVec.msb_xor]
  cases a.msb <;> cases b.msb <;> simp <;> simp [BitVec.xor_assoc, BitVec.xor_comm, xor_left_comm]

theorem xorColumn_cancel (c k : AesColumn) : xorColumn (xorColumn c k) k = c := by
  cases c; cases k; simp only [xorColumn, xor_cancel_right]

theorem addRoundKey_cancel (k s : AesState) : addRoundKey k (addRoundKey k s) = s := by
  cases s; cases k; simp [addRoundKey, xorColumn_cancel]

theorem invShiftRows_shiftRows (s : AesState) : invShiftRows (shiftRows s) = s := rfl

theorem times9_xor (a b : Byte) : times9 (a ^^^ b) = times9 a ^^^ times9 b := by
  simp only [times9, xtime_xor]
  ac_rfl

theorem times11_xor (a b : Byte) : times11 (a ^^^ b) = times11 a ^^^ times11 b := by
  simp only [times11, xtime_xor]
  ac_rfl

theorem times13_xor (a b : Byte) : times13 (a ^^^ b) = times13 a ^^^ times13 b := by
  simp only [times13, xtime_xor]
  ac_rfl

theorem times14_xor (a b : Byte) : times14 (a ^^^ b) = times14 a ^^^ times14 b := by
  simp only [times14, xtime_xor]
  ac_rfl

/-- The product of the two matrices is the identity, entry by entry. -/
theorem invMix_entries (a : Byte) :
    (times14 (xtime a) ^^^ times11 a ^^^ times13 a ^^^ times9 (times3 a) = a)
      ∧ (times14 (times3 a) ^^^ times11 (xtime a) ^^^ times13 a ^^^ times9 a = 0#8)
      ∧ (times14 a ^^^ times11 (times3 a) ^^^ times13 (xtime a) ^^^ times9 a = 0#8)
      ∧ (times14 a ^^^ times11 a ^^^ times13 (times3 a) ^^^ times9 (xtime a) = 0#8)
      ∧ (times9 (xtime a) ^^^ times14 a ^^^ times11 a ^^^ times13 (times3 a) = 0#8)
      ∧ (times9 (times3 a) ^^^ times14 (xtime a) ^^^ times11 a ^^^ times13 a = a)
      ∧ (times9 a ^^^ times14 (times3 a) ^^^ times11 (xtime a) ^^^ times13 a = 0#8)
      ∧ (times9 a ^^^ times14 a ^^^ times11 (times3 a) ^^^ times13 (xtime a) = 0#8)
      ∧ (times13 (xtime a) ^^^ times9 a ^^^ times14 a ^^^ times11 (times3 a) = 0#8)
      ∧ (times13 (times3 a) ^^^ times9 (xtime a) ^^^ times14 a ^^^ times11 a = 0#8)
      ∧ (times13 a ^^^ times9 (times3 a) ^^^ times14 (xtime a) ^^^ times11 a = a)
      ∧ (times13 a ^^^ times9 a ^^^ times14 (times3 a) ^^^ times11 (xtime a) = 0#8)
      ∧ (times11 (xtime a) ^^^ times13 a ^^^ times9 a ^^^ times14 (times3 a) = 0#8)
      ∧ (times11 (times3 a) ^^^ times13 (xtime a) ^^^ times9 a ^^^ times14 a = 0#8)
      ∧ (times11 a ^^^ times13 (times3 a) ^^^ times9 (xtime a) ^^^ times14 a = 0#8)
      ∧ (times11 a ^^^ times13 a ^^^ times9 (times3 a) ^^^ times14 (xtime a) = a) := by
  simp only [times3, times9, times11, times13, times14, xtime_xor]
  generalize h1 : xtime a = a1
  generalize h2 : xtime a1 = a2
  generalize h3 : xtime a2 = a3
  generalize xtime a3 = a4
  refine ⟨?_, ?_, ?_, ?_, ?_, ?_, ?_, ?_, ?_, ?_, ?_, ?_, ?_, ?_, ?_, ?_⟩ <;>
    simp only [BitVec.xor_comm, xor_left_comm, xor_cancel, BitVec.xor_self, BitVec.xor_zero]

/-- InvMixColumns undoes MixColumns. -/
theorem invMixColumn_mixColumn (c : AesColumn) : invMixColumn (mixColumn c) = c := by
  obtain ⟨a, b, c, d⟩ := c
  have ea := invMix_entries a
  have eb := invMix_entries b
  have ec := invMix_entries c
  have ed := invMix_entries d
  obtain ⟨a00, a01, a02, a03, a10, a11, a12, a13, a20, a21, a22, a23, a30, a31, a32, a33⟩ := ea
  obtain ⟨b00, b01, b02, b03, b10, b11, b12, b13, b20, b21, b22, b23, b30, b31, b32, b33⟩ := eb
  obtain ⟨c00, c01, c02, c03, c10, c11, c12, c13, c20, c21, c22, c23, c30, c31, c32, c33⟩ := ec
  obtain ⟨d00, d01, d02, d03, d10, d11, d12, d13, d20, d21, d22, d23, d30, d31, d32, d33⟩ := ed
  simp only [invMixColumn, mixColumn, times9_xor, times11_xor, times13_xor, times14_xor]
  rw [AesColumn.mk.injEq]
  refine ⟨?_, ?_, ?_, ?_⟩
  · refine Eq.trans (b := (times14 (xtime a) ^^^ times11 a ^^^ times13 a ^^^ times9 (times3 a)) ^^^ (times14 (times3 b) ^^^ times11 (xtime b) ^^^ times13 b ^^^ times9 b) ^^^ (times14 c ^^^ times11 (times3 c) ^^^ times13 (xtime c) ^^^ times9 c) ^^^ (times14 d ^^^ times11 d ^^^ times13 (times3 d) ^^^ times9 (xtime d))) (by ac_rfl) ?_
    rw [a00, b01, c02, d03]
    simp
  · refine Eq.trans (b := (times9 (xtime a) ^^^ times14 a ^^^ times11 a ^^^ times13 (times3 a)) ^^^ (times9 (times3 b) ^^^ times14 (xtime b) ^^^ times11 b ^^^ times13 b) ^^^ (times9 c ^^^ times14 (times3 c) ^^^ times11 (xtime c) ^^^ times13 c) ^^^ (times9 d ^^^ times14 d ^^^ times11 (times3 d) ^^^ times13 (xtime d))) (by ac_rfl) ?_
    rw [a10, b11, c12, d13]
    simp
  · refine Eq.trans (b := (times13 (xtime a) ^^^ times9 a ^^^ times14 a ^^^ times11 (times3 a)) ^^^ (times13 (times3 b) ^^^ times9 (xtime b) ^^^ times14 b ^^^ times11 b) ^^^ (times13 c ^^^ times9 (times3 c) ^^^ times14 (xtime c) ^^^ times11 c) ^^^ (times13 d ^^^ times9 d ^^^ times14 (times3 d) ^^^ times11 (xtime d))) (by ac_rfl) ?_
    rw [a20, b21, c22, d23]
    simp
  · refine Eq.trans (b := (times11 (xtime a) ^^^ times13 a ^^^ times9 a ^^^ times14 (times3 a)) ^^^ (times11 (times3 b) ^^^ times13 (xtime b) ^^^ times9 b ^^^ times14 b) ^^^ (times11 c ^^^ times13 (times3 c) ^^^ times9 (xtime c) ^^^ times14 c) ^^^ (times11 d ^^^ times13 d ^^^ times9 (times3 d) ^^^ times14 (xtime d))) (by ac_rfl) ?_
    rw [a30, b31, c32, d33]
    simp

/-- A function of bytes on a column is undone by its inverse. -/
theorem mapColumn_undo {f g : Byte → Byte} (h : ∀ x, g (f x) = x) (c : AesColumn) : mapColumn g (mapColumn f c) = c := by
  cases c; simp [mapColumn, h]

/-- A function of columns on the state is undone by its inverse. -/
theorem mapState_undo {f g : AesColumn → AesColumn} (h : ∀ c, g (f c) = c) (s : AesState) : mapState g (mapState f s) = s := by
  cases s; simp [mapState, h]

/-- The rounds of decipherment undo those of encipherment. -/
theorem decipherRounds_encipherRounds (ks : List AesState) (s : AesState) :
    decipherRounds ks (encipherRounds ks s) = s := by
  have hs : ∀ s, mapState (mapColumn invSubByte) (mapState (mapColumn subByte) s) = s :=
    fun s => mapState_undo (mapColumn_undo invSubByte_subByte) s
  match ks with
  | [] => rfl
  | [k] =>
    show mapState (mapColumn invSubByte) (invShiftRows (addRoundKey k (addRoundKey k (shiftRows _)))) = s
    rw [addRoundKey_cancel, invShiftRows_shiftRows, hs]
  | k :: k' :: ks =>
    show mapState (mapColumn invSubByte) (invShiftRows (mapState invMixColumn (addRoundKey k (decipherRounds (k' :: ks)
      (encipherRounds (k' :: ks) (addRoundKey k (mapState mixColumn (shiftRows _)))))))) = s
    rw [decipherRounds_encipherRounds (k' :: ks), addRoundKey_cancel, mapState_undo invMixColumn_mixColumn,
      invShiftRows_shiftRows, hs]

/-- A byte of the low part of two bit vectors joined. -/
theorem byteAt_append_low {v w : Nat} (x : BitVec v) (y : BitVec w) (i : Nat) (h : 8 * i + 8 ≤ w) :
    byteAt (x ++ y) i = byteAt y i := by
  apply BitVec.eq_of_getLsbD_eq
  intro j hj
  simp only [byteAt, BitVec.getLsbD_extractLsb', BitVec.getLsbD_append]
  rw [if_pos (by omega)]

/-- A byte of the high part of two bit vectors joined. -/
theorem byteAt_append_high {v w : Nat} (x : BitVec v) (y : BitVec w) (i k : Nat) (h : w = 8 * k) (hi : k ≤ i) :
    byteAt (x ++ y) i = byteAt x (i - k) := by
  apply BitVec.eq_of_getLsbD_eq
  intro j hj
  simp only [byteAt, BitVec.getLsbD_extractLsb', BitVec.getLsbD_append]
  rw [if_neg (by omega)]
  have e : 8 * i + j - w = 8 * (i - k) + j := by omega
  rw [e]

/-- A bit vector of one byte is its byte. -/
theorem byteAt_zero (x : Byte) : byteAt x 0 = x := by
  apply BitVec.eq_of_getLsbD_eq
  intro j hj
  simp [byteAt, hj]

/-- The column of the bytes of a column. -/
theorem columnAt_columnBits (c : AesColumn) : columnAt (columnBits c) 0 = c := by
  obtain ⟨a0, a1, a2, a3⟩ := c
  simp only [columnAt, columnBits, AesColumn.mk.injEq]
  refine ⟨?_, ?_, ?_, ?_⟩
  · rw [byteAt_append_low _ _ _ (by decide), byteAt_zero]
  · rw [byteAt_append_high _ _ _ 1 rfl (by decide), byteAt_append_low _ _ _ (by decide), byteAt_zero]
  · rw [byteAt_append_high _ _ _ 1 rfl (by decide), byteAt_append_high _ _ _ 1 rfl (by decide),
      byteAt_append_low _ _ _ (by decide), byteAt_zero]
  · rw [byteAt_append_high _ _ _ 1 rfl (by decide), byteAt_append_high _ _ _ 1 rfl (by decide),
      byteAt_append_high _ _ _ 1 rfl (by decide), byteAt_zero]

/-- A column of the low part of two bit vectors joined. -/
theorem columnAt_append_low {v w : Nat} (x : BitVec v) (y : BitVec w) (i : Nat) (h : 32 * i + 32 ≤ w) :
    columnAt (x ++ y) i = columnAt y i := by
  simp only [columnAt]
  rw [byteAt_append_low _ _ _ (by omega), byteAt_append_low _ _ _ (by omega), byteAt_append_low _ _ _ (by omega),
    byteAt_append_low _ _ _ (by omega)]

/-- A column above a low part of one column. -/
theorem columnAt_append_high {v : Nat} (x : BitVec v) (y : BitVec 32) (i : Nat) :
    columnAt (x ++ y) (i + 1) = columnAt x i := by
  simp only [columnAt]
  rw [byteAt_append_high _ _ _ 4 rfl (by omega), byteAt_append_high _ _ _ 4 rfl (by omega),
    byteAt_append_high _ _ _ 4 rfl (by omega), byteAt_append_high _ _ _ 4 rfl (by omega)]
  simp only [show 4 * (i + 1) - 4 = 4 * i by omega, show 4 * (i + 1) + 1 - 4 = 4 * i + 1 by omega,
    show 4 * (i + 1) + 2 - 4 = 4 * i + 2 by omega, show 4 * (i + 1) + 3 - 4 = 4 * i + 3 by omega]

/-- The state of the bytes of a state. -/
theorem toAesState_ofAesState (s : AesState) : toAesState (ofAesState s) = s := by
  obtain ⟨a, b, c, d⟩ := s
  simp only [toAesState, ofAesState, AesState.mk.injEq]
  refine ⟨?_, ?_, ?_, ?_⟩
  · rw [columnAt_append_low _ _ _ (by decide), columnAt_columnBits]
  · rw [columnAt_append_high _ _ 0, columnAt_append_low _ _ _ (by decide), columnAt_columnBits]
  · rw [columnAt_append_high _ _ 1, columnAt_append_high _ _ 0, columnAt_append_low _ _ _ (by decide), columnAt_columnBits]
  · rw [columnAt_append_high _ _ 2, columnAt_append_high _ _ 1, columnAt_append_high _ _ 0, columnAt_columnBits]

/-- Four bytes joined. -/
theorem getLsbD_columnBits (c : AesColumn) (j : Nat) (hj : j < 32) : (columnBits c).getLsbD j =
    if j < 8 then c.r0.getLsbD j else if j < 16 then c.r1.getLsbD (j - 8) else if j < 24 then c.r2.getLsbD (j - 16)
    else c.r3.getLsbD (j - 24) := by
  simp only [columnBits, BitVec.getLsbD_append]
  by_cases h1 : j < 8
  · simp [h1]
  · by_cases h2 : j < 16
    · simp [h1, h2, show j - 8 < 8 by omega]
    · by_cases h3 : j < 24
      · simp [h1, h2, h3, show ¬(j - 8 < 8) by omega, show j - 8 - 8 = j - 16 by omega, show j - 16 < 8 by omega]
      · simp [h1, h2, h3, show ¬(j - 8 < 8) by omega, show ¬(j - 8 - 8 < 8) by omega, show j - 8 - 8 - 8 = j - 24 by omega]

/-- The bytes of a column of a bit vector. -/
theorem columnBits_columnAt {w : Nat} (x : BitVec w) (i : Nat) : columnBits (columnAt x i) = x.extractLsb' (32 * i) 32 := by
  apply BitVec.eq_of_getLsbD_eq
  intro j hj
  rw [getLsbD_columnBits _ _ hj]
  simp only [columnAt, byteAt, BitVec.getLsbD_extractLsb', hj, decide_true, Bool.true_and]
  split
  · next h => simp [h, show 8 * (4 * i) + j = 32 * i + j by omega]
  · split
    · simp [show j - 8 < 8 by omega, show 8 * (4 * i + 1) + (j - 8) = 32 * i + j by omega]
    · split
      · simp [show j - 16 < 8 by omega, show 8 * (4 * i + 2) + (j - 16) = 32 * i + j by omega]
      · simp [show j - 24 < 8 by omega, show 8 * (4 * i + 3) + (j - 24) = 32 * i + j by omega]

/-- The bytes of the state of sixteen bytes. -/
theorem ofAesState_toAesState (x : BitVec 128) : ofAesState (toAesState x) = x := by
  simp only [ofAesState, toAesState, columnBits_columnAt]
  apply BitVec.eq_of_getLsbD_eq
  intro j hj
  simp only [BitVec.getLsbD_append, BitVec.getLsbD_extractLsb']
  by_cases h1 : j < 32
  · simp [h1]
  · by_cases h2 : j < 64
    · simp [h1, show j - 32 < 32 by omega, show 32 + (j - 32) = j by omega]
    · by_cases h3 : j < 96
      · simp [h1, show ¬(j - 32 < 32) by omega, show j - 32 - 32 < 32 by omega, show 64 + (j - 32 - 32) = j by omega]
      · simp [h1, show ¬(j - 32 < 32) by omega, show ¬(j - 32 - 32 < 32) by omega, show j - 32 - 32 - 32 < 32 by omega,
          show 96 + (j - 32 - 32 - 32) = j by omega]

/-- AES-256 decipherment undoes encipherment. -/
theorem aesDecrypt_aesEncrypt (key : Key) (x : BitVec 128) : aesDecrypt key (aesEncrypt key x) = x := by
  unfold aesDecrypt aesEncrypt
  cases roundKeys key with
  | nil => rfl
  | cons k ks =>
    show ofAesState (addRoundKey k (decipherRounds ks (toAesState (ofAesState _)))) = x
    rw [toAesState_ofAesState, decipherRounds_encipherRounds, addRoundKey_cancel, ofAesState_toAesState]

/-! ### The wrap of a key -/

/-- The two halves of a bit vector of 128 bits, joined. -/
theorem join_halves (b : BitVec 128) : b.extractLsb' 64 64 ++ b.extractLsb' 0 64 = b := by
  apply BitVec.eq_of_getLsbD_eq
  intro j hj
  simp only [BitVec.getLsbD_append, BitVec.getLsbD_extractLsb']
  by_cases h : j < 64
  · simp [h]
  · simp [h, show j - 64 < 64 by omega, show 64 + (j - 64) = j by omega]

/-- Bits of the low part of two bit vectors joined. -/
theorem extract_low {v w : Nat} (x : BitVec v) (y : BitVec w) (start len : Nat) (h : start + len ≤ w) :
    (x ++ y).extractLsb' start len = y.extractLsb' start len := by
  apply BitVec.eq_of_getLsbD_eq
  intro j hj
  simp only [BitVec.getLsbD_extractLsb', BitVec.getLsbD_append]
  rw [if_pos (by omega)]

/-- Bits of the high part of two bit vectors joined. -/
theorem extract_high {v w : Nat} (x : BitVec v) (y : BitVec w) (start len : Nat) (h : w ≤ start) :
    (x ++ y).extractLsb' start len = x.extractLsb' (start - w) len := by
  apply BitVec.eq_of_getLsbD_eq
  intro j hj
  simp only [BitVec.getLsbD_extractLsb', BitVec.getLsbD_append]
  rw [if_neg (by omega), show start + j - w = start - w + j by omega]

/-- All bits of a bit vector. -/
theorem extract_all {w : Nat} (x : BitVec w) : x.extractLsb' 0 w = x := by
  apply BitVec.eq_of_getLsbD_eq
  intro j hj
  simp [hj]

/-- A step of the unwrap undoes the step of the wrap. -/
theorem unwrapStep_wrapStep (key : Key) (t : Nat) (a r : BitVec 64) :
    unwrapStep key t (wrapStep key t a r).1 (wrapStep key t a r).2 = (a, r) := by
  simp only [unwrapStep, wrapStep, xor_cancel_right, join_halves, aesDecrypt_aesEncrypt,
    extract_low r a 0 64 (by decide), extract_high r a 64 64 (by decide), Nat.sub_self, extract_all]

/-- Four steps of the wrap, counters `t + 1` to `t + 4`. -/
def wrapPass (key : Key) (t : Nat) (s : WrapState) : WrapState :=
  let p1 := wrapStep key (t + 1) s.a s.r1
  let p2 := wrapStep key (t + 2) p1.1 s.r2
  let p3 := wrapStep key (t + 3) p2.1 s.r3
  let p4 := wrapStep key (t + 4) p3.1 s.r4
  ⟨p4.1, p1.2, p2.2, p3.2, p4.2⟩

/-- A pass of the unwrap undoes the pass of the wrap. -/
theorem unwrapPass_wrapPass (key : Key) (t : Nat) (s : WrapState) : unwrapPass key t (wrapPass key t s) = s := by
  simp only [unwrapPass, wrapPass, unwrapStep_wrapStep]

/-- The wrap of a 256-bit key: 40 bytes, the check register first. -/
def wrapBits (key value : Key) : BitVec 320 :=
  let s := wrapPass key 20 (wrapPass key 16 (wrapPass key 12 (wrapPass key 8 (wrapPass key 4 (wrapPass key 0
    ⟨0xA6A6A6A6A6A6A6A6, value.extractLsb' 0 64, value.extractLsb' 64 64, value.extractLsb' 128 64, value.extractLsb' 192 64⟩)))))
  s.r4 ++ s.r3 ++ s.r2 ++ s.r1 ++ s.a


/-- The four pieces of a 256-bit key, joined. -/
theorem join_quarters (k : Key) :
    k.extractLsb' 192 64 ++ k.extractLsb' 128 64 ++ k.extractLsb' 64 64 ++ k.extractLsb' 0 64 = k := by
  apply BitVec.eq_of_getLsbD_eq
  intro j hj
  simp only [BitVec.getLsbD_append, BitVec.getLsbD_extractLsb']
  by_cases h1 : j < 64
  · simp [h1]
  · by_cases h2 : j < 128
    · simp [h1, show j - 64 < 64 by omega, show 64 + (j - 64) = j by omega]
    · by_cases h3 : j < 192
      · simp [h1, show ¬(j - 64 < 64) by omega, show j - 64 - 64 < 64 by omega, show 128 + (j - 64 - 64) = j by omega]
      · simp [h1, show ¬(j - 64 < 64) by omega, show ¬(j - 64 - 64 < 64) by omega, show j - 64 - 64 - 64 < 64 by omega,
          show 192 + (j - 64 - 64 - 64) = j by omega]

/-- Five 64-bit pieces joined and taken apart. -/
theorem pieces_of_join (a b c d e : BitVec 64) :
    let w : BitVec 320 := e ++ d ++ c ++ b ++ a
    w.extractLsb' 0 64 = a ∧ w.extractLsb' 64 64 = b ∧ w.extractLsb' 128 64 = c ∧ w.extractLsb' 192 64 = d
      ∧ w.extractLsb' 256 64 = e := by
  refine ⟨?_, ?_, ?_, ?_, ?_⟩
  · rw [extract_low _ _ _ _ (by decide), extract_all]
  · rw [extract_high _ _ _ _ (by decide), extract_low _ _ _ _ (by decide)]; exact extract_all b
  · rw [extract_high _ _ _ _ (by decide), extract_high _ _ _ _ (by decide), extract_low _ _ _ _ (by decide)]; exact extract_all c
  · rw [extract_high _ _ _ _ (by decide), extract_high _ _ _ _ (by decide), extract_high _ _ _ _ (by decide),
      extract_low _ _ _ _ (by decide)]
    exact extract_all d
  · rw [extract_high _ _ _ _ (by decide), extract_high _ _ _ _ (by decide), extract_high _ _ _ _ (by decide),
      extract_high _ _ _ _ (by decide)]
    exact extract_all e

/-- Unwrapping a wrapped key gives the check value and the key. -/
theorem unwrapKey_wrapBits (key value : Key) : unwrapKey key (wrapBits key value) = (0xA6A6A6A6A6A6A6A6, value) := by
  unfold unwrapKey wrapBits
  generalize hs : wrapPass key 20 _ = s
  obtain ⟨h0, h1, h2, h3, h4⟩ := pieces_of_join s.a s.r1 s.r2 s.r3 s.r4
  dsimp only at h0 h1 h2 h3 h4 ⊢
  have e : unwrapPass key 0 (unwrapPass key 4 (unwrapPass key 8 (unwrapPass key 12 (unwrapPass key 16 (unwrapPass key 20 s))))) =
      ⟨0xA6A6A6A6A6A6A6A6, value.extractLsb' 0 64, value.extractLsb' 64 64, value.extractLsb' 128 64, value.extractLsb' 192 64⟩ := by
    rw [← hs, unwrapPass_wrapPass, unwrapPass_wrapPass, unwrapPass_wrapPass, unwrapPass_wrapPass, unwrapPass_wrapPass,
      unwrapPass_wrapPass]
  rw [h0, h1, h2, h3, h4, show (⟨s.a, s.r1, s.r2, s.r3, s.r4⟩ : WrapState) = s from rfl, e]
  simp only [join_quarters]

/-- A transit key record of format 1 that carries `value`, with its integrity tag. -/
def keyRecordOf (value : Key) : KeyRecord :=
  let body : BitVec 384 := wrapBits wrapKey value ++ (1 : BitVec 64)
  recordTag ((0 : BitVec 128) ++ body) ++ body

/-- The bytes of the tag. -/
theorem tag_of_join (t : BitVec 128) (body : BitVec 384) : (t ++ body).extractLsb' 384 128 = t := by
  rw [extract_high _ _ _ _ (by decide)]
  exact extract_all t

/-- The integrity tag covers the bytes below it. -/
theorem recordTag_append (t t' : BitVec 128) (body : BitVec 384) : recordTag (t ++ body) = recordTag (t' ++ body) := by
  unfold recordTag bytesOf
  simp only [List.range_one, List.map_cons, List.map_nil, byteAt, Nat.mul_zero]
  rw [extract_low t body 0 8 (by decide), extract_low t' body 0 8 (by decide), extract_low t body 64 320 (by decide),
    extract_low t' body 64 320 (by decide)]

/-- Such a record unwraps to the key it carries, whatever the fused transport key is (R82). -/
theorem unwrapRecord_keyRecordOf (value : Key) : unwrapRecord (keyRecordOf value) = some value := by
  unfold unwrapRecord
  rw [if_neg, if_neg]
  · have e : (keyRecordOf value).extractLsb' 64 320 = wrapBits wrapKey value := by
      unfold keyRecordOf
      rw [extract_low _ _ _ _ (by decide), extract_high _ _ _ _ (by decide)]
      exact extract_all _
    rw [e, unwrapKey_wrapBits]
    rfl
  · unfold keyRecordOf
    rw [tag_of_join]
    exact fun h => h (recordTag_append _ _ _)
  · unfold keyRecordOf field
    rw [extract_low _ _ _ _ (by decide), extract_low _ _ _ _ (by decide)]
    decide

end Sys2Proof.Machine
end

