-- ==== Sys2Proof/Laws/Ops.lean ====
section
/-! SUPPORT. What the shared operations do, one lemma for each: table reads after writes, keys, demands on the store writer, notices,
health, the response to the request in progress, references, completions, the issue queue, releases, hand-on and the completion of jobs. -/

namespace Sys2Proof.Machine

variable (s : State)

/-! ### Tables -/

/-- A recording slot record after a write of one. -/
theorem State.recSlot_setRec (n k : Nat) (r : RecSlot) : (s.setRec n r).recSlot k = if k = n then r else s.recSlot k :=
  Table.get_put _ _ _ _ _

/-- A ring slot record after a write of one. -/
theorem State.ring_setRing (n k : Nat) (r : RingSlot) : (s.setRing n r).ring k = if k = n then r else s.ring k :=
  Table.get_put _ _ _ _ _

/-- An extent entry after a write of one. -/
theorem State.extent_setExtent (i k : Nat) (e : Extent) : (s.setExtent i e).extent k = if k = i then e else s.extent k :=
  Table.get_put _ _ _ _ _

/-- A chunk tag after a write of one. -/
theorem State.tagAt_setTag (i k : Nat) (v : Option Nat) : (s.setTag i v).tagAt k = if k = i then v else s.tagAt k :=
  Table.get_put _ _ _ _ _

/-! ### Keys (R75, R83) -/

/-- A destroyed key is gone and the others stay. -/
theorem State.keyEntry_destroyKey (o p : KeyOwner) :
    (s.destroyKey o).keyEntry p = if p = o then none else s.keyEntry p := by
  unfold State.destroyKey State.keyEntry
  rw [State.setKeys_keys, List.find?_filter]
  by_cases h : p = o
  · subst h; simp
  · rw [if_neg h]
    refine congrArg (fun q => s.keys.find? q) (funext fun e => ?_)
    by_cases he : e.owner = p
    · simp [he, h]
    · simp [he]

/-- An added key is the owner's and the others stay. -/
theorem State.keyEntry_addKey (o p : KeyOwner) (source : Key) :
    (s.addKey o source).keyEntry p = if p = o then some ⟨o, source, expandPair source⟩ else s.keyEntry p := by
  have h := s.keyEntry_destroyKey o p
  unfold State.addKey State.keyEntry at *
  rw [State.setKeys_keys, List.find?_append, h]
  by_cases hp : p = o
  · subst hp; simp
  · have ho : ¬o = p := fun e => hp e.symm
    simp [hp, ho]

/-! ### The store writer (R37, R38) -/

/-- A demanded record stands in the queue. -/
theorem State.mem_demand (id : RecordId) : id ∈ (s.demand id).store.queue := by
  unfold State.demand State.markPersisting
  cases id <;> simp only [State.setRec_store, State.modStore_store] <;> split <;> simp_all

/-- A record in the queue stays there or is being written once the writer has looked at its queue. -/
theorem State.beginWrite_demanded (id : RecordId) (h : id ∈ s.store.queue) :
    id ∈ s.beginWrite.store.queue ∨ s.beginWrite.store.writer.any (fun w => w.record = id) = true := by
  unfold State.beginWrite
  split
  · next i rest hw hq =>
    rw [hq] at h
    rcases List.mem_cons.1 h with e | e
    · right
      subst e
      cases id <;> simp [State.newWrite]
    · left
      simpa using e
  · exact .inl h

/-! ### Notices (R173) -/

/-- A raised notice stands in the list, or the overflowed mark is set. -/
theorem raiseNotice_listed (m : Mgmt) (kind : NoticeKind) (subject : Option Nat) (details : NoticeDetails) :
    (raiseNotice m kind subject details).overflowed = true
      ∨ ∃ n ∈ (raiseNotice m kind subject details).notices, n.kind = kind ∧ n.subject = subject ∧ n.details = details := by
  unfold raiseNotice
  split
  · next h =>
    right
    simp only [List.any_eq_true] at h
    obtain ⟨n, hn, e⟩ := h
    refine ⟨{ n with count := min 255 (n.count + 1), details }, List.mem_map.2 ⟨n, hn, by rw [if_pos e]⟩, ?_, ?_, rfl⟩
    · simp at e; exact e.1
    · simp at e; exact e.2
  · split
    · exact .inr ⟨_, List.mem_append_right _ (List.mem_singleton.2 rfl), rfl, rfl, rfl⟩
    · exact .inl rfl

/-- A notice in the list stays in it, by kind and subject, when another is raised; a set mark stays set. -/
theorem raiseNotice_keeps (m : Mgmt) (kind : NoticeKind) (subject : Option Nat) (details : NoticeDetails) :
    (∀ n ∈ m.notices, ∃ k ∈ (raiseNotice m kind subject details).notices, k.kind = n.kind ∧ k.subject = n.subject)
      ∧ (m.overflowed = true → (raiseNotice m kind subject details).overflowed = true) := by
  unfold raiseNotice
  split
  · refine ⟨fun n hn => ?_, fun h => h⟩
    refine ⟨_, List.mem_map.2 ⟨n, hn, rfl⟩, ?_⟩
    split <;> exact ⟨rfl, rfl⟩
  · split
    · exact ⟨fun n hn => ⟨n, List.mem_append_left _ hn, rfl, rfl⟩, fun h => h⟩
    · exact ⟨fun n hn => ⟨n, hn, rfl, rfl⟩, fun _ => rfl⟩

/-! ### Health (R126) -/

/-- One failure or timeout raises the count by 8, or leaves it at 255 with the part to be cut off. -/
theorem raiseHealth_one (count : Nat) :
    raiseHealth 1 count = if count + 8 ≤ 255 then (count + 8, false) else (255, true) := by
  simp [raiseHealth]

/-! ### The response (R165) -/

/-- A request in progress becomes final with the result and the body. -/
theorem State.answer_of_request {r : Request} (h : s.mgmt.request = some r) (result : Result) (body : List Byte)
    (items next : Nat) (overflowed : Bool) :
    s.answer result body items next overflowed =
      { s with mgmt := { s.mgmt with
          request := none
          response := some { kind := r.kind, number := r.number, result, items, next, overflowed, body } } } := by
  simp only [State.answer, State.modMgmt, h]

/-- A request in progress that waits for another event. -/
theorem State.waitFor_of_request {r : Request} (h : s.mgmt.request = some r) (w : Wait) :
    s.waitFor w = { s with mgmt := { s.mgmt with request := some { r with wait := w } } } := by
  simp only [State.waitFor, State.modMgmt, h, Option.map_some]

/-! ### References (R9, R11) -/

/-- A reference taken raises the entry's in-use count by 1. -/
theorem State.extent_takeReference (e k : Nat) :
    (s.takeReference e).extent k = if k = e then { s.extent e with inUse := (s.extent e).inUse + 1 } else s.extent k :=
  s.extent_setExtent e k _

/-- A reference released lowers the count, and a RETIRING entry at its last reference becomes EMPTY. -/
theorem State.extent_releaseReference (e k : Nat) :
    (s.releaseReference e).extent k =
      if k = e then
        if (s.extent e).state = .retiring ∧ (s.extent e).inUse ≤ 1 then {}
        else { s.extent e with inUse := (s.extent e).inUse - 1 }
      else s.extent k := by
  unfold State.releaseReference
  dsimp only
  split <;> rw [State.extent_setExtent]

/-! ### Completions (R102, R177) -/

/-- A completion without an error carries reason 0 and block 0. -/
@[simp] theorem completionOf_none (tag : Nat) (mark : Bool) : completionOf tag none mark = .completion tag .good 0 0 mark := rfl

/-- A completion with an error carries the reason's code and its block. -/
@[simp] theorem completionOf_some (tag : Nat) (reason : Reason) (block : Nat) (mark : Bool) :
    completionOf tag (some (reason, block)) mark = .completion tag .error reason.code block mark := rfl

/-- The codes of reasons lie between 1 and 17, and GOOD's 0 is none of them. -/
theorem Reason.code_range (r : Reason) : 1 ≤ r.code ∧ r.code ≤ 17 := by
  cases r <;> exact ⟨by decide, by decide⟩

/-! ### The issue queue (R88) -/

/-- What stands in the issue queue once those due have joined. -/
theorem State.mem_joinReleased (tag : Nat) :
    tag ∈ s.joinReleased.issueQueue ↔ tag ∈ s.issueQueue ∨ ∃ t ∈ s.transfers, s.dueToJoin t = true ∧ t.tag = tag := by
  simp only [State.joinReleased, State.setIssueQueue_issueQueue, List.mem_append, List.mem_map, List.mem_filter, and_assoc]

/-- What joins the queue stands behind what was in it. -/
theorem State.joinReleased_order : ∃ l, s.joinReleased.issueQueue = s.issueQueue ++ l := ⟨_, rfl⟩

/-! ### Releases from a hold (R56, R153) -/

/-- A release of no transfer changes nothing. -/
@[simp] theorem State.releaseHeld_nil (leave : State → Nat → State) : s.releaseHeld leave [] = s := rfl

/-- A release takes the first of the list out of its hold, and lets it request its burst before the rest leave theirs. -/
@[simp] theorem State.releaseHeld_cons (leave : State → Nat → State) (tag : Nat) (tags : List Nat) :
    s.releaseHeld leave (tag :: tags) = (((leave s tag).activate [tag]).grant).releaseHeld leave tags := rfl

/-! ### Hand-on (R89, R155) -/

/-- A block handed on is counted, and no more of its transfer changes. -/
theorem State.transfer_countDelivered {tag : Nat} {t : Transfer} (h : s.transfer tag = some t) :
    (s.countDelivered tag).transfer tag = some { t with delivered := t.delivered + 1 } := by
  have e : (fun u : Transfer => decide (u.tag = tag))
      ∘ (fun u => if u.tag = tag then { u with delivered := u.delivered + 1 } else u) = fun u => decide (u.tag = tag) := by
    funext u
    by_cases hu : u.tag = tag <;> simp [hu]
  have ht := List.find?_some h
  rw [State.transfer] at h
  rw [State.countDelivered, State.modTransfer, State.transfer, State.setTransfers_transfers, List.find?_map, e, h, Option.map_some,
    if_pos (of_decide_eq_true ht)]

/-- In a MOVE a block of a chunk above the cursor is not delivered, nor the last block of a PASS-THROUGH READ before its command has ended. -/
theorem State.deliver_waits {tag : Nat} {t : Transfer} {b : OutBlock} {rest : List OutBlock} (h : s.transfer tag = some t)
    (ho : t.output = b :: rest) (ha : (s.aheadOfCursor b.origin || t.awaitsCommand) = true) : s.deliver tag = s := by
  unfold State.deliver
  rw [h]
  dsimp only
  rw [ho]
  cases t.kind <;> first | rfl | exact if_pos ha

/-- What waits for its command is the last block of a PASS-THROUGH READ that has not ended. -/
theorem Transfer.awaitsCommand_iff (t : Transfer) :
    t.awaitsCommand = true ↔ t.kind = .read ∧ t.handling = .passThrough ∧ t.commandEnded = false ∧ t.count.getD 0 ≤ t.delivered + 1 := by
  simp [Transfer.awaitsCommand, and_assoc]

/-! ### The end of a slot's store write (R31, R33, R38) -/

/-- The record of a slot after the end of its write: the persisted floor is the one the write carried. -/
theorem State.recSlot_recWritten (n : Nat) (w : StoreWrite) :
    (s.recWritten n w).recSlot n =
      { s.recSlot n with
        persistedFloor := w.floor
        persisting := s.store.queue.contains (.slot n)
        erased := (s.recSlot n).erased || (w.erasure && (s.recSlot n).state = .erasing) } := by
  unfold State.recWritten
  rw [State.recSlot_setRec, if_pos rfl]

/-! ### The completion of a job (R141) -/

/-- A RUNNING head job whose chunks are all done completes, whatever pause cause holds. -/
theorem State.jobStep_done {j : Job} (h : s.headJob = some j) (hr : j.state = .running) (hi : j.stage = .idle)
    (hd : j.count ≤ j.done) : s.jobStep = some (s.jobDone j) := by
  simp only [State.jobStep, h, hr, hi, hd, if_true]

/-- A completed job is no longer in the queue, and the others stay in their order. -/
theorem State.jobDone_queue (j : Job) : (s.jobDone j).jobs.queue = s.jobs.queue.filter fun x => x.number ≠ j.number := rfl

/-- JOB-DONE of a completed job stands in the notice list with its counts, or the overflowed mark is set. -/
theorem State.jobDone_listed (j : Job) : (s.jobDone j).mgmt.overflowed = true
    ∨ ∃ n ∈ (s.jobDone j).mgmt.notices,
        n.kind = .jobDone ∧ n.subject = some j.number ∧ n.details = .jobDone j.copied j.lost j.overtaken :=
  raiseNotice_listed _ _ _ _

end Sys2Proof.Machine
end

