-- ==== Sys2Proof/WellFormed.lean ====
section
/-! DEFINITION. Which commands the ports and the request blocks can carry: every field within the width the
spec gives it. `exec` does not test this (log 32); statements use it as a premise where it matters. -/

namespace Sys2Proof

/-- A transfer tag is 0 to 15 (R85). -/
def Owner.wellFormed : Owner → Bool
  | .tag n => n < 16
  | .job => true

/-- A tag, a block address and a 16-bit count field (R85, R177). -/
def blockCommandOk (tag first countField : Nat) : Bool :=
  tag < 16 && first < 2 ^ 48 && countField < 65536

/-- The widths of the 16-byte extent entry of chapter 12. -/
def ExtentDesc.wellFormed (d : ExtentDesc) : Bool :=
  d.index < 2 ^ 16 && d.base < 2 ^ 32 && d.exponent < 2 ^ 8 && d.slot < 2 ^ 8 && d.firstOrdinal < 2 ^ 32

/-- Every field of the command lies within its width (R176, R177, chapter 12). -/
def Instr.wellFormed : Instr → Bool
  | .powerOn _ => true
  | .powerLoss => true
  | .slotLoad => true
  | .controllerLinkReset _ => true
  | .tick => true
  | .minuteEvent => true
  | .sweepPass => true
  | .sweepEnd => true
  | .commandTimeout owners => !owners.isEmpty && owners.all Owner.wellFormed
  | .diskLinkResetEnd _ => true
  | .diskLinkResetFail => true
  | .linkLoss => true
  | .commandSuccess owner => owner.wellFormed
  | .commandFailure owner failing => owner.wellFormed && failing.all (· < 2 ^ 48)
  | .dataFromController tag _ => tag < 16
  | .dataFromDisk owner _ => owner.wellFormed
  | .cipheringEnd => true
  | .blockDelivery tag => tag < 16
  | .blockToDisk owner => owner.wellFormed
  | .storeWriteEnd => true
  | .read tag first countField => blockCommandOk tag first countField
  | .write tag first countField => blockCommandOk tag first countField
  | .flush tag => tag < 16
  | .other tag code _ blocks =>
      tag < 16 && code < 256 && code != 0x8B && code != 0x8C
        && blocks.all (fun b => blockCommandOk tag b.1 b.2)
  | .mreq tag countField => tag < 16 && countField < 65536
  | .mrsp tag countField => tag < 16 && countField < 65536
  | .ident number => number < 65536
  | .mode number target => number < 65536 && target < 256
  | .setup number first length depth bgLimit bgShare timeout warnLevel =>
      number < 65536 && first < 2 ^ 48 && length < 2 ^ 32 && depth < 256 && bgLimit < 256
        && bgShare < 256 && timeout < 256 && warnLevel < 256
  | .setupRead number => number < 65536
  | .restart number => number < 65536
  | .noticeTake number => number < 65536
  | .clockRead number => number < 65536
  | .clockAdvance number target => number < 65536 && target < 2 ^ 32
  | .slotOpen number slot cls expiry =>
      number < 65536 && slot < 256 && cls < 256 && expiry.all (· < 2 ^ 32)
  | .slotFinish number slot => number < 65536 && slot < 256
  | .slotDrop number slot => number < 65536 && slot < 256
  | .slotView number slot => number < 65536 && slot < 256
  | .slotScan number start count => number < 65536 && start < 256 && count < 256
  | .ringOpen number slot cls window size =>
      number < 65536 && slot < 256 && cls < 256 && window < 65536 && size < 2 ^ 24
  | .extentLoad number itemCount descs =>
      number < 65536 && itemCount < 65536 && descs.length ≤ 30 && descs.all ExtentDesc.wellFormed
  | .extentClear number itemCount indices =>
      number < 65536 && itemCount < 65536 && indices.length ≤ 240 && indices.all (· < 65536)
  | .extentScan number start count => number < 65536 && start < 65536 && count < 256
  | .jobAdopt number source firstSource count target firstTarget =>
      number < 65536 && source < 256 && firstSource < 2 ^ 24 && count < 2 ^ 24 && target < 256
        && firstTarget < 2 ^ 24
  | .jobCancel number job => number < 65536 && job < 256
  | .jobScan number => number < 65536
  | .exportOpen number kind slot _ => number < 65536 && kind < 256 && slot < 256
  | .exportEnd number => number < 65536
  | .exportView number => number < 65536
  | .linkView number => number < 65536
  | .linkRestore number => number < 65536

end Sys2Proof
end

