-- ==== Sys2Proof/Laws/PerInstr.lean ====
section
/-! SUPPORT. A law of every command, one lemma for each: the tags that a well-formed command names are tags of transfers. -/

namespace Sys2Proof

/-- The tag an owner is, if it is a transfer. -/
def Owner.tags : Owner → List Nat
  | .tag n => [n]
  | .job => []

/-- The transfer tags that a command names (R85). -/
def Instr.tags : Instr → List Nat
  | .powerOn _ => []
  | .powerLoss => []
  | .slotLoad => []
  | .controllerLinkReset _ => []
  | .tick => []
  | .minuteEvent => []
  | .sweepPass => []
  | .sweepEnd => []
  | .commandTimeout owners => owners.flatMap Owner.tags
  | .diskLinkResetEnd _ => []
  | .diskLinkResetFail => []
  | .linkLoss => []
  | .commandSuccess owner => owner.tags
  | .commandFailure owner _ => owner.tags
  | .dataFromController tag _ => [tag]
  | .dataFromDisk owner _ => owner.tags
  | .cipheringEnd => []
  | .blockDelivery tag => [tag]
  | .blockToDisk owner => owner.tags
  | .storeWriteEnd => []
  | .read tag _ _ => [tag]
  | .write tag _ _ => [tag]
  | .flush tag => [tag]
  | .other tag _ _ _ => [tag]
  | .mreq tag _ => [tag]
  | .mrsp tag _ => [tag]
  | .ident _ => []
  | .mode _ _ => []
  | .setup _ _ _ _ _ _ _ _ => []
  | .setupRead _ => []
  | .restart _ => []
  | .noticeTake _ => []
  | .clockRead _ => []
  | .clockAdvance _ _ => []
  | .slotOpen _ _ _ _ => []
  | .slotFinish _ _ => []
  | .slotDrop _ _ => []
  | .slotView _ _ => []
  | .slotScan _ _ _ => []
  | .ringOpen _ _ _ _ _ => []
  | .extentLoad _ _ _ => []
  | .extentClear _ _ _ => []
  | .extentScan _ _ _ => []
  | .jobAdopt _ _ _ _ _ _ => []
  | .jobCancel _ _ => []
  | .jobScan _ => []
  | .exportOpen _ _ _ _ => []
  | .exportEnd _ => []
  | .exportView _ => []
  | .linkView _ => []
  | .linkRestore _ => []

namespace Laws

/-- The tags that the owners of well-formed commands name are 0 to 15. -/
theorem owner_tags {o : Owner} (h : o.wellFormed = true) : ∀ n ∈ o.tags, n < 16 := by
  cases o <;> simp_all [Owner.tags, Owner.wellFormed]

/-- A well-formed command names tags 0 to 15 only (R85). -/
def TagsInRange.Statement (i : Instr) : Prop := i.wellFormed = true → ∀ n ∈ i.tags, n < 16

theorem TagsInRange.powerOn (speed) : TagsInRange.Statement (.powerOn speed) :=
  fun _ _ h => by cases h
theorem TagsInRange.powerLoss : TagsInRange.Statement .powerLoss :=
  fun _ _ h => by cases h
theorem TagsInRange.slotLoad : TagsInRange.Statement .slotLoad :=
  fun _ _ h => by cases h
theorem TagsInRange.controllerLinkReset (speed) : TagsInRange.Statement (.controllerLinkReset speed) :=
  fun _ _ h => by cases h
theorem TagsInRange.tick : TagsInRange.Statement .tick :=
  fun _ _ h => by cases h
theorem TagsInRange.minuteEvent : TagsInRange.Statement .minuteEvent :=
  fun _ _ h => by cases h
theorem TagsInRange.sweepPass : TagsInRange.Statement .sweepPass :=
  fun _ _ h => by cases h
theorem TagsInRange.sweepEnd : TagsInRange.Statement .sweepEnd :=
  fun _ _ h => by cases h
theorem TagsInRange.commandTimeout (owners) : TagsInRange.Statement (.commandTimeout owners) :=
  fun h n hn => by
  simp only [Instr.tags, List.mem_flatMap] at hn
  obtain ⟨o, ho, hn⟩ := hn
  simp only [Instr.wellFormed, Bool.and_eq_true, List.all_eq_true] at h
  exact owner_tags (h.2 o ho) n hn
theorem TagsInRange.diskLinkResetEnd (speed) : TagsInRange.Statement (.diskLinkResetEnd speed) :=
  fun _ _ h => by cases h
theorem TagsInRange.diskLinkResetFail : TagsInRange.Statement .diskLinkResetFail :=
  fun _ _ h => by cases h
theorem TagsInRange.linkLoss : TagsInRange.Statement .linkLoss :=
  fun _ _ h => by cases h
theorem TagsInRange.commandSuccess (owner) : TagsInRange.Statement (.commandSuccess owner) :=
  fun h => owner_tags h
theorem TagsInRange.commandFailure (owner) (failing) : TagsInRange.Statement (.commandFailure owner failing) :=
  fun h => owner_tags (by simp [Instr.wellFormed] at h; exact h.1)
theorem TagsInRange.dataFromController (tag) (data) : TagsInRange.Statement (.dataFromController tag data) :=
  fun h => by simp_all [Instr.tags, Instr.wellFormed]
theorem TagsInRange.dataFromDisk (owner) (data) : TagsInRange.Statement (.dataFromDisk owner data) :=
  fun h => owner_tags h
theorem TagsInRange.cipheringEnd : TagsInRange.Statement .cipheringEnd :=
  fun _ _ h => by cases h
theorem TagsInRange.blockDelivery (tag) : TagsInRange.Statement (.blockDelivery tag) :=
  fun h => by simp_all [Instr.tags, Instr.wellFormed]
theorem TagsInRange.blockToDisk (owner) : TagsInRange.Statement (.blockToDisk owner) :=
  fun h => owner_tags h
theorem TagsInRange.storeWriteEnd : TagsInRange.Statement .storeWriteEnd :=
  fun _ _ h => by cases h
theorem TagsInRange.read (tag) (first) (k) : TagsInRange.Statement (.read tag first k) :=
  fun h => by simp_all [Instr.tags, Instr.wellFormed, blockCommandOk]
theorem TagsInRange.write (tag) (first) (k) : TagsInRange.Statement (.write tag first k) :=
  fun h => by simp_all [Instr.tags, Instr.wellFormed, blockCommandOk]
theorem TagsInRange.flush (tag) : TagsInRange.Statement (.flush tag) :=
  fun h => by simp_all [Instr.tags, Instr.wellFormed]
theorem TagsInRange.other (tag) (code) (d) (blocks) : TagsInRange.Statement (.other tag code d blocks) :=
  fun h => by simp_all [Instr.tags, Instr.wellFormed]
theorem TagsInRange.mreq (tag) (k) : TagsInRange.Statement (.mreq tag k) :=
  fun h => by simp_all [Instr.tags, Instr.wellFormed]
theorem TagsInRange.mrsp (tag) (k) : TagsInRange.Statement (.mrsp tag k) :=
  fun h => by simp_all [Instr.tags, Instr.wellFormed]
theorem TagsInRange.ident (n) : TagsInRange.Statement (.ident n) :=
  fun _ _ h => by cases h
theorem TagsInRange.mode (n) (a) : TagsInRange.Statement (.mode n a) :=
  fun _ _ h => by cases h
theorem TagsInRange.setup (n) (a) (b) (c) (d) (e) (f) (g) : TagsInRange.Statement (.setup n a b c d e f g) :=
  fun _ _ h => by cases h
theorem TagsInRange.setupRead (n) : TagsInRange.Statement (.setupRead n) :=
  fun _ _ h => by cases h
theorem TagsInRange.restart (n) : TagsInRange.Statement (.restart n) :=
  fun _ _ h => by cases h
theorem TagsInRange.noticeTake (n) : TagsInRange.Statement (.noticeTake n) :=
  fun _ _ h => by cases h
theorem TagsInRange.clockRead (n) : TagsInRange.Statement (.clockRead n) :=
  fun _ _ h => by cases h
theorem TagsInRange.clockAdvance (n) (a) : TagsInRange.Statement (.clockAdvance n a) :=
  fun _ _ h => by cases h
theorem TagsInRange.slotOpen (n) (a) (b) (c) : TagsInRange.Statement (.slotOpen n a b c) :=
  fun _ _ h => by cases h
theorem TagsInRange.slotFinish (n) (a) : TagsInRange.Statement (.slotFinish n a) :=
  fun _ _ h => by cases h
theorem TagsInRange.slotDrop (n) (a) : TagsInRange.Statement (.slotDrop n a) :=
  fun _ _ h => by cases h
theorem TagsInRange.slotView (n) (a) : TagsInRange.Statement (.slotView n a) :=
  fun _ _ h => by cases h
theorem TagsInRange.slotScan (n) (a) (b) : TagsInRange.Statement (.slotScan n a b) :=
  fun _ _ h => by cases h
theorem TagsInRange.ringOpen (n) (a) (b) (c) (d) : TagsInRange.Statement (.ringOpen n a b c d) :=
  fun _ _ h => by cases h
theorem TagsInRange.extentLoad (n) (a) (b) : TagsInRange.Statement (.extentLoad n a b) :=
  fun _ _ h => by cases h
theorem TagsInRange.extentClear (n) (a) (b) : TagsInRange.Statement (.extentClear n a b) :=
  fun _ _ h => by cases h
theorem TagsInRange.extentScan (n) (a) (b) : TagsInRange.Statement (.extentScan n a b) :=
  fun _ _ h => by cases h
theorem TagsInRange.jobAdopt (n) (a) (b) (c) (d) (e) : TagsInRange.Statement (.jobAdopt n a b c d e) :=
  fun _ _ h => by cases h
theorem TagsInRange.jobCancel (n) (a) : TagsInRange.Statement (.jobCancel n a) :=
  fun _ _ h => by cases h
theorem TagsInRange.jobScan (n) : TagsInRange.Statement (.jobScan n) :=
  fun _ _ h => by cases h
theorem TagsInRange.exportOpen (n) (a) (b) (c) : TagsInRange.Statement (.exportOpen n a b c) :=
  fun _ _ h => by cases h
theorem TagsInRange.exportEnd (n) : TagsInRange.Statement (.exportEnd n) :=
  fun _ _ h => by cases h
theorem TagsInRange.exportView (n) : TagsInRange.Statement (.exportView n) :=
  fun _ _ h => by cases h
theorem TagsInRange.linkView (n) : TagsInRange.Statement (.linkView n) :=
  fun _ _ h => by cases h
theorem TagsInRange.linkRestore (n) : TagsInRange.Statement (.linkRestore n) :=
  fun _ _ h => by cases h

end Laws

end Sys2Proof
end

