-- ==== Sys2Proof/Laws/Requests.lean ====
section
/-! SUPPORT. How a request is taken and how its MREQ ends, for a part whose transfer table keeps its law. -/

namespace Sys2Proof.Machine

/-- What `State.transfersOk` says, part by part. -/
theorem State.transfersOk_iff (s : State) : s.transfersOk = true ↔
    (s.transfers.map Transfer.tag).Nodup ∧ (s.transfers.filter fun t => t.kind = .mreq).length ≤ 1
      ∧ (∀ t ∈ s.transfers, t.kind.diskBound = true ∨ t.holdsNothing = true)
      ∧ ∀ tag ∈ s.listedTags, ∃ t ∈ s.transfers, t.tag = tag ∧ t.kind.diskBound = true := by
  simp [State.transfersOk, and_assoc]

/-- Records of one tag are one record. -/
theorem eq_of_tag {l : List Transfer} (h : (l.map Transfer.tag).Nodup) {t u : Transfer} (ht : t ∈ l) (hu : u ∈ l)
    (e : t.tag = u.tag) : t = u := by
  induction l with
  | nil => cases ht
  | cons x l ih =>
    simp only [List.map_cons, List.nodup_cons, List.mem_map, not_exists, not_and] at h
    rcases List.mem_cons.1 ht with e1 | ht' <;> rcases List.mem_cons.1 hu with e2 | hu'
    · rw [e1, e2]
    · subst e1; exact absurd e.symm (h.1 u hu')
    · subst e2; exact absurd e (h.1 t ht')
    · exact ih h.2 ht' hu'

theorem filter_ne_of_not_mem {l : List Nat} {n : Nat} (h : n ∉ l) : l.filter (· ≠ n) = l :=
  List.filter_eq_self.2 fun a ha => by
    have : a ≠ n := fun e => h (e ▸ ha)
    simpa using this

/-- An update that leaves the engine as it is. -/
theorem State.modEngine_eq {s : State} {f : Engine → Engine} (h : f s.engine = s.engine) : s.modEngine f = s := by
  unfold State.modEngine
  rw [h]

/-- An update that leaves the session as it is. -/
theorem State.modSession_eq {s : State} {f : Session → Session} (h : f s.session = s.session) : s.modSession f = s := by
  unfold State.modSession
  rw [h]

/-- The tag of a transfer that is not disk-bound stands in no list. -/
theorem State.not_listed {s : State} (h : s.transfersOk = true) {m : Transfer} (hm : m ∈ s.transfers)
    (hk : m.kind.diskBound = false) : m.tag ∉ s.listedTags := by
  intro hl
  obtain ⟨h1, -, -, h4⟩ := s.transfersOk_iff.1 h
  obtain ⟨t, ht, e, hd⟩ := h4 _ hl
  rw [eq_of_tag h1 ht hm e] at hd
  simp [hk] at hd

theorem State.leaveRing_unlisted (s : State) (tag n : Nat) (h : ∀ p ∈ (s.ring n).held, p.1 ≠ tag) :
    s.leaveRing tag n = s := by
  unfold State.leaveRing
  rw [if_neg]
  simp only [List.any_eq_true, decide_eq_true_eq, not_exists, not_and]
  exact h

/-- A transfer that holds nothing and stands in no list leaves the table and nothing else, but for the look at advance pending
(R155). -/
theorem State.freeTransfer_unlisted (s : State) (m : Transfer) (hl : m.tag ∉ s.listedTags)
    (hf : m.fragments = []) (hw : m.writeSlots = []) :
    s.freeTransfer m = (s.setTransfers (s.transfers.filter fun t => t.tag ≠ m.tag)).checkAdvance := by
  simp only [State.listedTags, List.mem_append, not_or, List.mem_flatMap, List.mem_map, not_exists, not_and] at hl
  obtain ⟨⟨⟨⟨⟨hq, hwt⟩, hr⟩, hh⟩, hb⟩, he⟩ := hl
  unfold State.freeTransfer
  generalize hs1 : s.setTransfers (s.transfers.filter fun t => t.tag ≠ m.tag) = s1
  have e1 : s1.discardBurst (.tag m.tag) = s1 := by
    apply State.modEngine_eq
    rw [if_neg]
    subst hs1
    simp only [State.setTransfers_engine]
    cases hbu : s.engine.burst with
    | none => simp
    | some b =>
      rw [hbu] at he
      simp only at he
      cases ho : b.owner with
      | job => simp [ho]
      | tag k =>
        rw [ho] at he
        simp only [List.mem_singleton] at he
        simp [ho, Ne.symm he]
  have e2 : s1.releaseTransfer m = s1 := by
    unfold State.releaseTransfer
    simp [hf, hw, entriesOf]
  have e3 : s1.leaveLists m.tag = s1 := by
    have hring : ∀ n ∈ ringNumbers, s1.leaveRing m.tag n = s1 := by
      intro n hn
      apply s1.leaveRing_unlisted
      intro p hp e
      have : (s1.ring n).held = (s.ring n).held := by subst hs1; rfl
      rw [this] at hp
      exact hr n hn p hp e
    have hq1 : m.tag ∉ s1.issueQueue := by subst hs1; exact hq
    unfold State.leaveLists
    rw [filter_ne_of_not_mem hq1]
    have hset : s1.setIssueQueue s1.issueQueue = s1 := rfl
    rw [hset]
    have hfold : [64, 65, 66, 67].foldl (fun s n => s.leaveRing m.tag n) s1 = s1 := by
      simp only [List.foldl]
      rw [hring 64 (by decide), hring 65 (by decide), hring 66 (by decide), hring 67 (by decide)]
    show ([64, 65, 66, 67].foldl (fun s n => s.leaveRing m.tag n) s1).modSession _ = s1
    rw [hfold]
    have a1 : s1.session.held.filter (fun h => h.1 ≠ m.tag) = s1.session.held := by
      apply List.filter_eq_self.2
      intro p hp
      have : p ∈ s.session.held := by subst hs1; exact hp
      simpa using fun e => hh p this e
    have a2 : s1.session.heldBack.filter (· ≠ m.tag) = s1.session.heldBack := by
      apply filter_ne_of_not_mem
      subst hs1; exact hb
    apply State.modSession_eq
    rw [a1, a2]
  have hwait : ∀ t ∈ s1.transfers, m.tag ∉ t.waitSet := by
    intro t ht
    have : t ∈ s.transfers := by subst hs1; exact (List.mem_filter.1 ht).1
    exact fun hm => hwt t this hm
  have e4 : s1.leaveWaitSets m.tag = s1 := by
    have f2 : (s1.transfers.map fun t => { t with waitSet := t.waitSet.filter (· ≠ m.tag) }) = s1.transfers := by
      conv => rhs; rw [← List.map_id s1.transfers]
      apply List.map_congr_left
      intro t ht
      rw [filter_ne_of_not_mem (hwait t ht)]
      rfl
    unfold State.leaveWaitSets
    rw [f2]
    rfl
  dsimp only
  rw [e1, e2, e3, e4]

/-- A transfer that names no block, holds nothing and stands in no list completes GOOD. -/
theorem State.finishTransfer_mreq (s : State) {m : Transfer} (h : s.transfersOk = true) (hm : m ∈ s.transfers)
    (hk : m.kind.diskBound = false) : s.finishTransfer m none = s.mreqEnds m := by
  have hl := State.not_listed h hm hk
  have hn : m.holdsNothing = true := by
    rcases (s.transfersOk_iff.1 h).2.2.1 m hm with hd | hd
    · simp [hk] at hd
    · exact hd
  simp only [Transfer.holdsNothing, Bool.and_eq_true, List.isEmpty_iff] at hn
  unfold State.finishTransfer
  rw [State.freeTransfer_unlisted]
  · rfl
  · exact hl
  · exact hn.1.1.2
  · exact hn.1.2

/-- The MREQ found in the table. -/
theorem State.mreqTransfer_mem {s : State} {m : Transfer} (h : s.mreqTransfer = some m) :
    m ∈ s.transfers ∧ m.kind = .mreq := by
  unfold State.mreqTransfer at h
  exact ⟨List.mem_of_find?_eq_some h, by simpa using List.find?_some h⟩

/-- The law of the transfer table looks at these fields only. -/
theorem State.transfersOk_congr {s t : State} (h1 : t.transfers = s.transfers) (h2 : t.issueQueue = s.issueQueue)
    (h3 : ∀ n ∈ ringNumbers, (t.ring n).held = (s.ring n).held) (h4 : t.session.held = s.session.held)
    (h5 : t.session.heldBack = s.session.heldBack) (h6 : t.engine.burst = s.engine.burst) :
    t.transfersOk = s.transfersOk := by
  have : t.listedTags = s.listedTags := by
    unfold State.listedTags
    rw [h1, h2, h4, h5, h6]
    have : ringNumbers.flatMap (fun n => (t.ring n).held.map (·.1))
        = ringNumbers.flatMap (fun n => (s.ring n).held.map (·.1)) := by
      simp only [ringNumbers, List.flatMap_cons, List.flatMap_nil]
      rw [h3 64 (by decide), h3 65 (by decide), h3 66 (by decide), h3 67 (by decide)]
    rw [this]
  unfold State.transfersOk
  rw [this, h1]

/-- Taking a request: its execution runs with the request in progress and the response PENDING; then the MREQ ends (R163). -/
theorem State.takeRequest_serving {s : State} {m : Transfer} (h : s.serving m = true) (kind number : Nat)
    (run : State → State) :
    s.whenPowered (fun s => s.takeRequest kind number run)
      = .next ((run { s with mgmt := { s.mgmt with
          request := some { kind, number, wait := .execution }
          response := some { kind, number, result := .pending } } }).finishTransfer m none) := by
  simp only [State.serving, Bool.and_eq_true, decide_eq_true_eq] at h
  obtain ⟨⟨hp, -⟩, hm⟩ := h
  simp [State.whenPowered, hp, State.takeRequest, hm, State.modMgmt]

/-- The MREQ of a request whose execution left the lists and the table alone. -/
theorem State.finish_serving {s t : State} {m : Transfer} (h : s.serving m = true) (h1 : t.transfers = s.transfers)
    (h2 : t.issueQueue = s.issueQueue) (h3 : ∀ n ∈ ringNumbers, (t.ring n).held = (s.ring n).held)
    (h4 : t.session.held = s.session.held) (h5 : t.session.heldBack = s.session.heldBack)
    (h6 : t.engine.burst = s.engine.burst) : t.finishTransfer m none = t.mreqEnds m := by
  simp only [State.serving, Bool.and_eq_true, decide_eq_true_eq] at h
  obtain ⟨⟨-, hok⟩, hm⟩ := h
  obtain ⟨hmem, hkind⟩ := State.mreqTransfer_mem hm
  refine State.finishTransfer_mreq t ?_ (h1 ▸ hmem) (by simp [hkind, TransferKind.diskBound])
  rw [State.transfersOk_congr h1 h2 h3 h4 h5 h6, hok]

end Sys2Proof.Machine
end

