-- ==== Sys2Proof/Tests/Slice0.lean ====
section
/-! SUPPORT. The model's own tests: known answers of the algorithms, ill-formed commands refused, what single commands do
on small states with the results the spec gives, and for every statement a state and operands that meet its hypotheses. -/

namespace Sys2Proof.Machine

open Sys2Proof

set_option Elab.async false

/-! ### The algorithms (known answers from their standards) -/

/-- FIPS 180-4, the message "abc". -/
theorem test_sha256 : sha256 (ascii "abc") =
    [0xba, 0x78, 0x16, 0xbf, 0x8f, 0x01, 0xcf, 0xea, 0x41, 0x41, 0x40, 0xde, 0x5d, 0xae, 0x22, 0x23, 0xb0, 0x03, 0x61,
     0xa3, 0x96, 0x17, 0x7a, 0x9c, 0xb4, 0x10, 0xff, 0x61, 0xf2, 0x00, 0x15, 0xad] := by decide +kernel

/-- The first 64 primes. -/
def primes : List Nat := (List.range 312).filter fun n => 2 ≤ n && (List.range n).all fun d => d < 2 || n % d ≠ 0

/-- FIPS 180-4, 4.2.2: constant `c` of the prime `p` is the 32 bits after the point of its cube root, whose whole part is `r`. -/
theorem test_sha_constants :
    primes.length = 64 ∧ (primes.zip shaConstants).all (fun x =>
      (List.range 7).any fun r =>
        let k := r * 2 ^ 32 + x.2.toNat
        k ^ 3 ≤ x.1 * 2 ^ 96 && x.1 * 2 ^ 96 < (k + 1) ^ 3) = true := by decide +kernel

/-- FIPS 197, appendix C.3: AES-256. -/
theorem test_aes256 :
    aesEncrypt 0x1f1e1d1c1b1a191817161514131211100f0e0d0c0b0a09080706050403020100 0xffeeddccbbaa99887766554433221100
        = 0x8960494b9049fceabf456751cab7a28e
      ∧ aesDecrypt 0x1f1e1d1c1b1a191817161514131211100f0e0d0c0b0a09080706050403020100 0x8960494b9049fceabf456751cab7a28e
        = 0xffeeddccbbaa99887766554433221100 := by decide +kernel

/-- HMAC-SHA-256 of the key 01h to 20h over "xts-data" and "xts-tweak" (computed with OpenSSL). -/
theorem test_expand_pair :
    expandPair 0x201f1e1d1c1b1a191817161514131211100f0e0d0c0b0a090807060504030201
      = ⟨0xa4bbffc260922428289d6d418001086f95ca34317d66014a674dd986948473a5,
         0xc5a0308c32d523f673f471f77ee03d97774a809f1d0ba6376a5ac413f17aa0b7⟩ := by decide +kernel

/-- The 512 bytes 00h to FFh, twice. -/
def xtsPlain : Block := BitVec.ofNat 4096 ((List.range 512).foldr (fun i n => i % 256 + 256 * n) 0)

/-- IEEE 1619, vector 10 (XTS-AES-256, data unit FFh): its last 32 bytes, which every doubling of the mask reaches. -/
theorem test_xts :
    (encipherBlock ⟨0x2776966649575999699370245777496226357174286053234590452818281827,
      0x9245947409820551379993169741880295278333646284239397585326594131⟩ 0xff xtsPlain).extractLsb' 3840 256
        = 0x51c148e193e6c6b970eafca9fd6ff3c4545ebb24c855a72f09d24b0138ad3d77 := by decide +kernel

/-- RFC 3394, section 4.6: the unwrap of 256 bits under a 256-bit key. -/
theorem test_unwrap :
    unwrapKey 0x1f1e1d1c1b1a191817161514131211100f0e0d0c0b0a09080706050403020100
        0x21dd027a9b8b98fb3bf4991ae7f0c7cb26d30ed8e286573f26f887fb5cb3cccbf410b8c404f4c928
      = (0xa6a6a6a6a6a6a6a6, 0x0f0e0d0c0b0a09080706050403020100ffeeddccbbaa99887766554433221100) := by decide +kernel

/-! ### Ill-formed commands, one for each check -/

/-- Commands whose fields lie outside their widths (R85, R176, R177). -/
def illFormed : List Instr :=
  [.commandTimeout [], .commandTimeout [.tag 16], .commandSuccess (.tag 16), .commandFailure (.tag 16) none,
   .commandFailure .job (some (2 ^ 48)), .dataFromController 16 0, .dataFromDisk (.tag 16) 0, .blockDelivery 16,
   .blockToDisk (.tag 16), .read 16 0 1, .read 0 (2 ^ 48) 1, .read 0 0 65536, .write 16 0 1, .write 0 (2 ^ 48) 1,
   .write 0 0 65536, .flush 16, .other 16 0xEC .none none, .other 0 256 .none none, .other 0 0x8B .none none,
   .other 0 0x8C .none none, .other 0 0xEC .none (some (2 ^ 48, 1)), .other 0 0xEC .none (some (0, 65536)), .mreq 16 1,
   .mreq 0 65536, .mrsp 16 1, .mrsp 0 65536, .ident 65536, .mode 65536 1, .mode 0 256, .setup 65536 0 0 0 0 0 0 0,
   .setup 0 (2 ^ 48) 0 0 0 0 0 0, .setup 0 0 (2 ^ 32) 0 0 0 0 0, .setup 0 0 0 256 0 0 0 0, .setup 0 0 0 0 256 0 0 0,
   .setup 0 0 0 0 0 256 0 0, .setup 0 0 0 0 0 0 256 0, .setup 0 0 0 0 0 0 0 256, .setupRead 65536, .restart 65536,
   .noticeTake 65536, .clockRead 65536, .clockAdvance 65536 0, .clockAdvance 0 (2 ^ 32), .slotOpen 65536 0 0 none,
   .slotOpen 0 256 0 none, .slotOpen 0 0 256 none, .slotOpen 0 0 0 (some (2 ^ 32)), .slotFinish 65536 0, .slotFinish 0 256,
   .slotDrop 65536 0, .slotDrop 0 256, .slotView 65536 0, .slotView 0 256, .slotScan 65536 0 1, .slotScan 0 256 1,
   .slotScan 0 0 256, .ringOpen 65536 64 0 1 1, .ringOpen 0 256 0 1 1, .ringOpen 0 64 256 1 1, .ringOpen 0 64 0 65536 1,
   .ringOpen 0 64 0 1 (2 ^ 24), .extentLoad 65536 0 [], .extentLoad 0 65536 [],
   .extentLoad 0 31 (List.replicate 31 ⟨0, 0, 0, 0, 0⟩), .extentLoad 0 1 [⟨2 ^ 16, 0, 0, 0, 0⟩],
   .extentLoad 0 1 [⟨0, 2 ^ 32, 0, 0, 0⟩], .extentLoad 0 1 [⟨0, 0, 256, 0, 0⟩], .extentLoad 0 1 [⟨0, 0, 0, 256, 0⟩],
   .extentLoad 0 1 [⟨0, 0, 0, 0, 2 ^ 32⟩], .extentClear 65536 1 [0], .extentClear 0 65536 [0],
   .extentClear 0 1 (List.replicate 241 0), .extentClear 0 1 [65536], .extentScan 65536 0 1, .extentScan 0 65536 1,
   .extentScan 0 0 256, .jobAdopt 65536 64 0 1 0 0, .jobAdopt 0 256 0 1 0 0, .jobAdopt 0 64 (2 ^ 24) 1 0 0,
   .jobAdopt 0 64 0 (2 ^ 24) 0 0, .jobAdopt 0 64 0 1 256 0, .jobAdopt 0 64 0 1 0 (2 ^ 24), .jobCancel 65536 1,
   .jobCancel 0 256, .jobScan 65536, .exportOpen 65536 1 0 0, .exportOpen 0 256 0 0, .exportOpen 0 1 256 0,
   .exportEnd 65536, .exportView 65536, .linkView 65536, .linkRestore 65536]

/-- Every one of them is refused. -/
theorem test_ill_formed : illFormed.all (fun c => !c.wellFormed) = true := by decide +kernel

/-- Commands at the ends of their ranges are well-formed. -/
theorem test_well_formed :
    ([.read 15 (2 ^ 48 - 1) 0, .other 15 255 .toDisk (some (2 ^ 48 - 1, 65535)), .mreq 15 65535, .slotOpen 65535 255 255 none,
      .commandTimeout [.tag 15, .job], .extentLoad 65535 30 [⟨65535, 2 ^ 32 - 1, 255, 255, 2 ^ 32 - 1⟩], .powerLoss,
      .jobAdopt 0 67 (2 ^ 24 - 1) (2 ^ 24 - 1) 63 (2 ^ 24 - 1)] : List Instr).all Instr.wellFormed = true := by decide +kernel

/-- The table gives no row any bits, so no word spells a command (log 9). -/
theorem test_no_word : decodeTableWord 16 0x8B = none := rfl

/-! ### Small states -/

/-- The command runs to a next state that meets `p`. -/
def gives (c : Instr) (s : State) (p : State → Bool) : Bool :=
  match exec c s with
  | .next t => p t
  | _ => false

/-- The key pair of the small states. -/
def pair : XtsPair := ⟨3, 4⟩

/-- A part in RUN with nothing to do: slot 0 OPEN with 2 chunks written, slot 1 FINISHED with 4, slot 2 ERASING, ring 64 of 16
chunks RUNNING with one LIVE epoch opened at minute 100, and an entry for each. -/
def base : State :=
  { mgmt := { mode := .run, loading := .finished, setup := { first := 256, length := 64 } }
    clock := { minutes := 104, ticks := 7, running := true, persisted := some 90 }
    disk := { link := .up, speed := some .gen3, health := 9 }
    recs := [(0, { state := .opened, high := 2 }), (1, { state := .finished, length := 4, high := 4 }), (2, { state := .erasing })]
    rings := [(64, { state := .running, window := 80, epochLength := 10, size := 16, lastSerial := some 3, sequence := 4
                     epochs := [⟨3, 4, 100, .live⟩] })]
    tags := [(1, some 3), (2, some 2)]
    extents := [(0, ⟨.valid, 0, 2, 0, 0, 0⟩), (1, ⟨.valid, 4, 2, 1, 0, 0⟩), (2, ⟨.valid, 16, 4, 64, 0, 0⟩),
                (3, ⟨.retiring, 8, 0, 2, 0, 1⟩)]
    keys := [⟨.slot 0, 1, pair⟩, ⟨.slot 1, 2, pair⟩, ⟨.slot 64, 5, pair⟩, ⟨.epoch 64 3, 6, pair⟩] }

/-- The MREQ that carries the requests of the tests. -/
def carrier : Transfer := { tag := 15, kind := .mreq, handling := .management, state := .active }

/-- The state with `carrier` in its table. -/
def State.served (s : State) : State := { s with transfers := s.transfers ++ [carrier] }

/-- The state in a mode. -/
def State.inMode (s : State) (m : Mode) : State := { s with mgmt := { s.mgmt with mode := m } }

/-- The state with a command of this owner outstanding. -/
def State.issued (s : State) (o : Owner) (stage : Option JobStage := none) : State :=
  { s with disk := { s.disk with outstanding := s.disk.outstanding ++ [⟨o, stage, some 50⟩] } }

/-- The state with one more transfer. -/
def State.holding (s : State) (t : Transfer) : State := { s with transfers := s.transfers ++ [t] }

/-- An ACTIVE PROTECTED READ or WRITE of `count` blocks from `first` through one entry, all but the last block of its first burst
arrived. -/
def moving (kind : TransferKind) (tag first count : Nat) (entry : Option Nat) (arrived : Nat) : Transfer :=
  { tag, kind, handling := .guarded, first := some first, count := some count, fragments := [⟨first, count, entry⟩]
    state := .active, arrived, input := List.replicate arrived 5 }

/-- A RUNNING job from ring 64 to slot 0 at a stage. -/
def runner (stage : JobStage) : Job :=
  { number := 1, state := .running, source := 64, firstSource := 1, count := 1, target := 0, firstTarget := 2, stage
    fence := some .noEpoch, forcedSequence := some 5, chunkEpoch := some (3, 4) }

/-- The state with these jobs. -/
def State.jobbed (s : State) (l : List Job) : State := { s with jobs := { s.jobs with queue := l, lastNumber := 1 } }

/-- The state with an export session of slot `n`. -/
def State.exporting (s : State) (mode : ExportMode) (n : Nat) (cursor : Option Nat) : State :=
  { s with
    session := { state := .active, mode := some mode, slot := some n, cursor, keyPresent := true }
    keys := s.keys ++ [⟨.transit, 9, pair⟩] }

/-- The state with slot 1 MOVING under a MOVE session whose cursor stands at chunk 1. -/
def moveBase : State :=
  (base.exporting .move 1 (some 1)).setRec 1 { state := .moving, length := 4, high := 4, floor := 1, persistedFloor := 1 }

/-- The state with the store writing a record. -/
def State.storing (s : State) (w : StoreWrite) : State := { s with store := { s.store with writer := some w } }

/-! ### What single commands do -/

/-- R178, R167: power-on starts the part in STARTING; the speed is the one established. -/
theorem test_power_on : gives (.powerOn .gen1) { State.reset with powered := false }
    (fun t => t.powered && t.controllerSpeed = .gen1 && t.mgmt.mode = .starting && t.disk.link = .resetting) = true := by
  decide +kernel

/-- R39: power lost during the write of slot 5's record damages it. -/
theorem test_power_loss :
    gives .powerLoss (base.storing ⟨.slot 5, .slot {}, false, false, 0⟩)
      (fun t => !t.powered && (t.storedRec 5).damaged && !(t.storedRec 4).damaged && t.transfers = []) = true := by
  decide +kernel

/-- R69: an intact time record of 4,294,967,290 restores the saturated count. -/
theorem test_slot_load_time :
    gives .slotLoad { State.reset with store := { time := { minutes := 4294967290 } } }
      (fun t => t.clock.minutes = 4294967295 && t.clock.persisted = some 4294967290 && t.mgmt.loading = .slot 0) = true := by
  decide +kernel

/-- R40: a stored FINISHED record comes back with its floor, a damaged one EMPTY with RECORD-DAMAGED. -/
theorem test_slot_load_record :
    gives .slotLoad
        { State.reset with
          mgmt := { loading := .slot 7 }, store := { records := [(7, { state := .finished, length := 12, high := 12, floor := 3 })] } }
        (fun t => (t.recSlot 7).state = .finished && (t.recSlot 7).persistedFloor = 3 && t.mgmt.loading = .slot 8) = true
      ∧ gives .slotLoad
        { State.reset with mgmt := { loading := .slot 7 }, store := { records := [(7, { damaged := true, state := .opened })] } }
        (fun t => (t.recSlot 7).state = .empty && t.mgmt.notices.map Notice.kind = [.recordDamaged]) = true := by
  decide +kernel

/-- R104: a controller-link reset drops the table without a completion. -/
theorem test_controller_link_reset :
    gives (.controllerLinkReset .gen2) ((base.holding (moving .read 1 256 9 (some 0) 3)).issued (.tag 1))
      (fun t => t.transfers = [] && t.sent = [] && t.disk.link = .resetting && t.disk.resetSeen) = true := by
  decide +kernel

/-- R66, R123: the tick counts, and an outstanding command's timeout counts down. -/
theorem test_tick : gives .tick (base.issued (.tag 3))
    (fun t => t.clock.ticks = 8 && t.disk.outstanding.map Outstanding.timeout = [some 49]) = true := by decide +kernel

/-- R125: the 100th tick of a disk-link reset ends it with failure. -/
theorem test_tick_reset_fails :
    gives .tick { base with disk := { base.disk with link := .resetting, resetTicks := 99 } }
      (fun t => t.disk.link = .down && t.disk.healthState = .cutoff) = true := by decide +kernel

/-- 3.9.1: at minute 1078 the epoch opened at 988 in a ring with W = 90 expires; R68: 1080 is a multiple of 15. -/
theorem test_minute_event :
    let s : State :=
      { base with
        clock := { base.clock with minutes := 1077 }
        rings := [(66, { state := .running, window := 90, epochLength := 12, size := 4096, epochs := [⟨2, 42, 988, .live⟩, ⟨3, 43, 1000, .live⟩] })] }
    gives .minuteEvent s (fun t => (t.ring 66).epochs.map Epoch.state = [.sweeping, .live] && t.clock.minutes = 1078
        && t.sweep = some ⟨66, 2, 0⟩ && t.store.writer.isNone) = true
      ∧ gives .minuteEvent { s with clock := { s.clock with minutes := 1079 } } (fun t =>
          t.store.writer = some ⟨.time, .time 1080, false, false, 0⟩) = true := by decide +kernel

/-- R58: a sweep of serial 3 empties tag 1 and leaves tag 2. -/
theorem test_sweep_pass :
    gives .sweepPass { base with sweep := some ⟨64, 3, 1⟩ } (fun t => t.tagAt 1 = none && t.tagAt 2 = some 2) = true
      ∧ gives .sweepPass { base with sweep := some ⟨64, 3, 2⟩ } (fun t => t.tagAt 2 = some 2) = true := by decide +kernel

/-- R59: at its end the entry leaves the list. -/
theorem test_sweep_end :
    gives .sweepEnd ({ base with sweep := some ⟨64, 3, 1⟩ }.setRing 64
        { base.ring 64 with epochs := [⟨3, 4, 100, .sweeping⟩, ⟨4, 5, 103, .live⟩] })
      (fun t => (t.ring 64).epochs.map Epoch.serial = [4] && t.tagAt 1 = none && t.sweep.isNone) = true := by decide +kernel

/-- R124, R126: a timeout scores 8 and begins a disk-link reset; the transfer completes TIMEOUT. -/
theorem test_command_timeout :
    gives (.commandTimeout [.tag 1]) ((base.holding (moving .write 1 256 9 (some 0) 3)).issued (.tag 1))
      (fun t => t.disk.health = 17 && t.disk.link = .resetting && t.disk.timeoutSeen
        && t.sent = [.completion 1 .error 11 256 false]) = true := by decide +kernel

/-- R125: ready; R131: the LINK-RESTORE that waited is answered OK with the count at 0. -/
theorem test_link_reset_end :
    gives (.diskLinkResetEnd .gen2)
      { base with
        mgmt := { base.mgmt with request := some ⟨0x18, 6, .linkRestore⟩ }
        disk := { base.disk with link := .resetting, healthState := .cutoff, health := 255 } }
      (fun t => t.disk.link = .up && t.disk.health = 0 && t.mgmt.response = some { kind := 0x18, number := 6, result := .ok })
      = true := by decide +kernel

/-- R125, R131: a reset that fails answers LINK-DOWN. -/
theorem test_link_reset_fail :
    gives .diskLinkResetFail
      { base with
        mgmt := { base.mgmt with request := some ⟨0x18, 6, .linkRestore⟩ }, disk := { base.disk with link := .resetting } }
      (fun t => t.disk.link = .down && t.mgmt.response = some { kind := 0x18, number := 6, result := .linkDown }) = true := by
  decide +kernel

/-- R129, R128: a link loss cuts the port off; a queued disk-bound transfer completes CUTOFF. -/
theorem test_link_loss :
    gives .linkLoss ({ base.holding { moving .read 4 256 9 (some 0) 0 with state := .queued } with issueQueue := [4] })
      (fun t => t.disk.healthState = .cutoff && t.disk.health = 9 && t.issueQueue = []
        && t.transfers = [] && t.mgmt.notices.map Notice.kind = [.linkCutoff]) = true := by decide +kernel

/-- R88: a WRITE's end frees a FLUSH that waited for it and ends a drain that held back a READ: they join the issue queue in the order of
their admissions, the READ first. -/
theorem test_command_success_joins :
    let r : Transfer := { moving .read 4 256 9 (some 0) 0 with state := .queued, drainHeld := true }
    let f : Transfer := { tag := 5, kind := .flush, handling := .passThrough, state := .queued, waitSet := [1] }
    gives (.commandSuccess (.tag 1))
        (((((base.inMode .draining).holding (moving .write 1 512 9 (some 0) 3)).holding r).holding f).issued (.tag 1))
      (fun t => t.mgmt.mode = .config
        && t.sent = [.completion 1 .good 0 0 false, .command 4 .read (some 256) (some 9), .command 5 .flush none none]) = true := by
  decide +kernel

/-- R122, R126: a success lowers the count by 1 and completes a WRITE GOOD. -/
theorem test_command_success :
    gives (.commandSuccess (.tag 1)) ((base.holding (moving .write 1 256 9 (some 0) 3)).issued (.tag 1))
      (fun t => t.disk.health = 8 && t.sent = [.completion 1 .good 0 0 false]) = true := by decide +kernel

/-- R92: a failure names the block the disk reports, or the first not handed on. -/
theorem test_command_failure :
    gives (.commandFailure (.tag 1) (some 260)) ((base.holding (moving .read 1 256 9 (some 0) 3)).issued (.tag 1))
        (fun t => t.disk.health = 17 && t.sent = [.completion 1 .error 10 260 false]) = true
      ∧ gives (.commandFailure (.tag 1) none)
        ((base.holding { moving .read 1 256 9 (some 0) 3 with delivered := 2 }).issued (.tag 1))
        (fun t => t.sent = [.completion 1 .error 10 258 false]) = true := by decide +kernel

/-- The partition and slot 7 of 1.3.1. -/
def case131 : State :=
  { base with
    mgmt := { base.mgmt with setup := { first := 1048576, length := 65536 } }
    recs := [(7, { state := .opened, high := 20000 })]
    extents := [(5, ⟨.valid, 40960, 12, 7, 8192, 0⟩), (9, ⟨.valid, 45056, 10, 7, 12288, 0⟩)]
    keys := [⟨.slot 7, 1, pair⟩] }

/-- 1.3.1: block 11,790,353 is ciphered with tweak 2,353,169. -/
theorem test_translation :
    gives (.dataFromDisk (.tag 1) 7) ((case131.holding (moving .read 1 11790353 1 (some 5) 0)).issued (.tag 1))
      (fun t => t.engine.burst.map (fun b => (b.tweak, b.composition)) = some (2353169, .decipher pair)) = true := by
  decide +kernel

/-- 1.5.1: the fragments of 20 blocks from 12,582,906, and of 512 blocks from chunk 46,079. -/
theorem test_fragments :
    case131.fragmentsOf 12582906 20 = [⟨12582906, 6, some 5⟩, ⟨12582912, 14, some 9⟩]
      ∧ case131.fragmentsOf (1048576 + 256 * 46079) 512
        = [⟨1048576 + 256 * 46079, 256, some 9⟩, ⟨1048576 + 256 * 46080, 256, none⟩] := by decide +kernel

/-- 3.9.1: at count 1000 the first write burst into ordinal 500 opens serial 3, sequence 43, and tags it. -/
theorem test_ring_write :
    let s : State :=
      { base with
        mgmt := { base.mgmt with setup := { first := 0, length := 8192 } }
        clock := { base.clock with minutes := 1000 }
        rings := [(66, { state := .running, window := 90, epochLength := 12, size := 4096, lastSerial := some 2, sequence := 42
                         epochs := [⟨2, 42, 988, .live⟩] })]
        extents := [(0, ⟨.valid, 4096, 12, 66, 0, 0⟩)]
        keys := [⟨.slot 66, 5, pair⟩, ⟨.epoch 66 2, 6, pair⟩] }
    gives (.dataFromController 2 5) (s.holding (moving .write 2 (256 * 4596) 1 (some 0) 0)) (fun t =>
      t.tagAt 500 = some 3 && (t.ring 66).epochs = [⟨2, 42, 988, .live⟩, ⟨3, 43, 1000, .live⟩]) = true := by decide +kernel

/-- R89, R111: the burst's output waits for hand-on, enciphered; its tweak is 2 (R4). -/
theorem test_ciphering_end :
    gives .cipheringEnd
        { (base.holding { moving .write 1 258 1 (some 0) 0 with arrived := 1, covered := 1 }) with
          engine := { burst := some ⟨.tag 1, 258, [7], .encipher pair, 2, 0, [.ciphertext], false, true⟩ } }
        (fun t => t.engine.burst.isNone && (t.transfer 1).map Transfer.output = some [⟨zeroBlock, .zero⟩]) = true := by
  decide +kernel

/-- R154: block-in-chunk 255 of the cursor chunk delivered: the cursor rises. -/
theorem test_block_delivery :
    gives (.blockDelivery 1)
        ((moveBase.holding { moving .read 1 (256 + 256 * 5 + 255) 1 (some 1) 0 with output := [⟨8, .transit 1 1 true⟩] }))
        (fun t => t.session.cursor = some 2 && t.session.chunksDelivered = 1 && t.sent = [.delivered 1 8]) = true := by
  decide +kernel

/-- R155: block-in-chunk 0 of chunk 2, decided while the advance is pending, is not delivered before chunk 1 has reached its end. -/
theorem test_block_delivery_waits :
    let u : Transfer := { moving .read 1 (256 + 256 * 6) 1 (some 1) 0 with output := [⟨8, .transit 1 2 false⟩] }
    let s : State := { moveBase.holding u with session := { moveBase.session with advancePending := true } }
    gives (.blockDelivery 1) s (fun t => t.sent = [] && t.transfer 1 = some u) = true
      ∧ gives (.blockDelivery 1) { s with session := { s.session with cursor := some 2 } } (fun t => t.sent = [.delivered 1 8]) = true := by
  decide +kernel

/-- R91: the last block of a PASS-THROUGH READ is delivered at or after the end of its command, and completes it; the one before is not held up. -/
theorem test_block_delivery_last :
    let u : Transfer := { tag := 1, kind := .read, handling := .passThrough, first := some 0, count := some 2, state := .active, arrived := 2
                          delivered := 1, output := [⟨8, .relayed⟩] }
    let s := (base.holding u).issued (.tag 1)
    gives (.blockDelivery 1) s (fun t => t.sent = [] && t.transfer 1 = some u) = true
      ∧ gives (.blockDelivery 1) ((base.holding { u with delivered := 0, output := [⟨7, .relayed⟩, ⟨8, .relayed⟩] }).issued (.tag 1))
          (fun t => t.sent = [.delivered 1 7]) = true
      ∧ gives (.blockDelivery 1) (base.holding { u with state := .ending, commandEnded := true })
          (fun t => t.sent = [.delivered 1 8, .completion 1 .good 0 0 false] && (t.transfer 1).isNone) = true := by decide +kernel

/-- R89: the next block of a WRITE goes to the disk. -/
theorem test_block_to_disk :
    gives (.blockToDisk (.tag 1)) ((base.holding { moving .write 1 256 9 (some 0) 0 with output := [⟨8, .ciphertext⟩] }).issued (.tag 1))
      (fun t => t.sent = [.toDisk (.tag 1) 8] && (t.transfer 1).map Transfer.delivered = some 1) = true := by decide +kernel

/-- R38: the persisted floor takes the floor written; the next of the queue begins. -/
theorem test_store_write_end :
    gives .storeWriteEnd
      { base with store := { queue := [.time], writer := some ⟨.slot 1, .slot { state := .finished, floor := 2 }, false, false, 2⟩ } }
      (fun t => (t.recSlot 1).persistedFloor = 2 && (t.storedRec 1).floor = 2 && t.store.queue = []
        && t.store.writer = some ⟨.time, .time 104, false, false, 0⟩) = true := by decide +kernel

/-- R31: floor 128, persisted 64, then SLOT-DROP: at the end of the erasure write the persisted floor is 128. R153: held transfers are
released in list order, the one of tag 2 first also when the command of tag 1, behind it, has ended. -/
theorem test_store_write_end_floor :
    let e := base.setRec 2 { state := .erasing, floor := 128, persistedFloor := 64 }
    let held := fun (tag : Nat) (state : TransferState) =>
      ({ moving .read tag (256 + 256 * 5) 1 (some 1) 1 with state, commandEnded := state = .ending } : Transfer)
    let m := (moveBase.setRec 1 { moveBase.recSlot 1 with floor := 4 }).holding (held 1 .ending) |>.holding (held 2 .held)
    gives .storeWriteEnd (e.storing ⟨.slot 2, .slot {}, true, false, 128⟩)
        (fun t => (t.recSlot 2).persistedFloor = 128 && t.storedRec 2 = {}) = true
      ∧ gives .storeWriteEnd
        ({ m with session := { m.session with held := [(2, 1), (1, 1)] } }.storing ⟨.slot 1, .slot { floor := 4 }, false, false, 4⟩)
        (fun t => t.engine.burst.map Burst.owner = some (.tag 2) && t.session.held = []
          && t.transfers.map (fun u => (u.tag, u.ready)) = [(1, true), (2, false)]) = true := by decide +kernel

/-- R87: SPAN names the first block on the other side; a READ of 65,536 blocks has count field 0. -/
theorem test_read :
    gives (.read 3 255 2) base (fun t => t.sent = [.completion 3 .error 3 256 false] && t.transfers = []) = true
      ∧ gives (.read 3 260 0) base (fun t => t.sent = [.completion 3 .error 3 16640 false]) = true := by decide +kernel

/-- R22, R87: a WRITE into a FINISHED slot is WRITE-LOCKED; one into an OPEN slot is in flight. -/
theorem test_write :
    gives (.write 3 1280 8) base (fun t => t.sent = [.completion 3 .error 2 1280 false]) = true
      ∧ gives (.write 3 256 8) base (fun t => (t.recSlot 0).inFlight = 1 && (t.extent 0).inUse = 1
          && t.sent = [.command 3 .write (some 256) (some 8)]) = true := by decide +kernel

/-- R101: a FLUSH waits for the WRITEs in the table. -/
theorem test_flush :
    gives (.flush 2) (base.holding (moving .write 1 256 9 (some 0) 3))
      (fun t => (t.transfer 2).map (fun u => (u.waitSet, u.state)) = some ([1], .queued) && t.sent = []) = true := by
  decide +kernel

/-- R86: an OTHER passes through. -/
theorem test_other : gives (.other 2 0xEC .fromDisk none) base
    (fun t => t.sent = [.command 2 (.other 0xEC .fromDisk) none none]) = true := by decide +kernel

/-- R177: command code 8Bh is an MREQ and 8Ch an MRSP. R89: the blocks of an OTHER are counted as they are handed on, and a failure names the
next one. -/
theorem test_other_codes :
    gives (.other 2 0x8B .toDisk (some (7, 0))) base (fun t => t.sent = [.completion 2 .error 16 0 false] && t.transfers = []) = true
      ∧ gives (.other 2 0x8C .fromDisk (some (7, 1))) base (fun t => (t.transfer 2).map Transfer.kind = some .mrsp) = true
      ∧ gives (.dataFromDisk (.tag 1) 8)
        ((base.holding { tag := 1, kind := .other 0x25 .fromDisk, handling := .passThrough, first := some 70, count := some 2, state := .active }).issued (.tag 1))
        (fun t => t.sent = [.delivered 1 8] && (t.transfer 1).map (fun u => u.failingBlock none) = some 71) = true := by decide +kernel

/-- R162: MGMT-FORM, and an MREQ admitted. -/
theorem test_mreq :
    gives (.mreq 2 0) base (fun t => t.sent = [.completion 2 .error 16 0 false]) = true
      ∧ gives (.mreq 2 1) base (fun t => (t.transfer 2).isSome && t.sent = []) = true := by decide +kernel

/-- R164: with no response the copy holds NONE, number 0, NOT-FOUND (13 in bytes 6 and 7). -/
theorem test_mrsp : gives (.mrsp 2 1) base
    (fun t => (t.transfer 2).map (fun u => u.output.map OutBlock.data) = some [BitVec.ofNat 4096 (13 * 2 ^ 48)]) = true := by
  decide +kernel

/-! ### What the requests answer -/

/-- The result and the body of the response. -/
def State.answered (s : State) : Option (Result × List Byte) := s.mgmt.response.map fun r => (r.result, r.body)

/-- R171: vendor 2E61h, part 0004h, revision 1, ..., mode RUN as 3. -/
theorem test_ident : gives (.ident 1) base.served (fun t => t.answered = some (.ok,
    [0x61, 0x2E, 4, 0, 1, 64, 4, 0, 8, 0, 0, 2, 16, 16, 8, 32, 65, 3])) = true := by decide +kernel

/-- R168: from RUN with nothing in the table the drain ends at once, mode CONFIG. -/
theorem test_mode : gives (.mode 1 1) base.served (fun t => t.mgmt.mode = .config && t.answered = some (.ok, [1])) = true
    ∧ gives (.mode 1 2) base.served (fun t => t.answered = some (.range, [])) = true := by decide +kernel

/-- R170: values are clamped; a new partition empties the map. -/
theorem test_setup : gives (.setup 1 512 32 0 9 99 255 0) (base.inMode .config).served (fun t =>
    t.mgmt.setup = ⟨512, 32, 1, 1, 15, 255, 1⟩ && t.extents = []
      && t.answered = some (.ok, [0, 2, 0, 0, 0, 0, 32, 0, 0, 0, 1, 1, 15, 255, 1])) = true := by decide +kernel

/-- R170. -/
theorem test_setup_read : gives (.setupRead 1) base.served (fun t =>
    t.answered = some (.ok, [0, 1, 0, 0, 0, 0, 64, 0, 0, 0, 8, 1, 4, 50, 6])) = true := by decide +kernel

/-- R172: RESTART stays in progress; every other transfer ends ABORTED. -/
theorem test_restart : gives (.restart 1) (base.holding (moving .read 4 256 9 (some 0) 0)).served (fun t =>
    t.mgmt.mode = .starting && t.answered = some (.pending, []) && t.rings = []
      && t.sent = [.completion 4 .error 12 256 false, .completion 15 .good 0 0 false]) = true := by decide +kernel

/-- R174: the list is handed over and emptied. -/
theorem test_notice_take :
    gives (.noticeTake 1) { base.served with mgmt := { base.mgmt with notices := [⟨.jobDone, some 4, 1, .jobDone 258 2 3⟩] } }
      (fun t => t.mgmt.notices = [] && t.answered = some (.ok, [4, 4, 1, 0, 0, 0, 2, 1, 0, 2, 0, 0, 3, 0, 0])) = true := by
  decide +kernel

/-- R72: minutes, ticks, the persisted count with its presence byte, INTACT, not saturated. -/
theorem test_clock_read : gives (.clockRead 1) base.served (fun t =>
    t.answered = some (.ok, [104, 0, 0, 0, 7, 0, 1, 90, 0, 0, 0, 0, 0])) = true := by decide +kernel

/-- R73: BACKWARD below the count, waiting above it. -/
theorem test_clock_advance :
    gives (.clockAdvance 1 103) base.served (fun t => t.answered = some (.backward, [])) = true
      ∧ gives (.clockAdvance 1 105) base.served (fun t => t.answered = some (.pending, []) && t.clock.minutes = 104
          && t.store.writer = some ⟨.time, .time 105, false, true, 0⟩) = true := by decide +kernel

/-- R24, R25: "any" takes the lowest EMPTY slot, here 3. -/
theorem test_slot_open : gives (.slotOpen 1 255 1 (some 105)) base.served (fun t =>
    (t.recSlot 3).state = .opened && (t.recSlot 3).cls = .once && (t.recSlot 3).created = 104
      && t.answered = some (.pending, [])) = true := by decide +kernel

/-- R26: the length is the high ordinal. -/
theorem test_slot_finish : gives (.slotFinish 1 0) base.served (fun t =>
    (t.recSlot 0).state = .finished && (t.recSlot 0).length = 2) = true := by decide +kernel

/-- R30, R28: slot 0 is ERASING without a key. -/
theorem test_slot_drop : gives (.slotDrop 1 0) base.served (fun t =>
    (t.recSlot 0).state = .erasing && (t.keyEntry (.slot 0)).isNone && (t.extent 0).state = .empty) = true := by decide +kernel

/-- R34 and 12.2: slot 1, FINISHED, changed set, high and length 4. -/
theorem test_slot_view : gives (.slotView 1 1) base.served (fun t =>
    t.answered.map (fun x => (x.1, x.2.take 12)) = some (.ok, [1, 2, 0, 1, 4, 0, 0, 0, 4, 0, 0, 0])
      && !(t.recSlot 1).changed) = true := by decide +kernel

/-- R35: a scan of 2 from slot 67 reports 67 and 0, next start 1. -/
theorem test_slot_scan : gives (.slotScan 1 67 2) base.served (fun t =>
    t.answered = some (.ok, [67, 0, 0, 1, 0, 1, 0, 1]) && t.mgmt.response.map Response.next = some 1) = true := by decide +kernel

/-- The rings of 3.3.1 before the open of 45,000 chunks. -/
def case331 : State :=
  { base with rings := [(65, { state := .running, window := 9, size := 50000, tagStart := 40000 }),
                        (66, { state := .running, window := 9, size := 30000, tagStart := 90000 })] }

/-- 3.3.1: 45,000 chunks find NO-ROOM; 35,000 start at 0; 2000 minutes are clamped to 1440 with L = 180. -/
theorem test_ring_open :
    gives (.ringOpen 1 64 0 2000 45000) case331.served (fun t => t.answered = some (.noRoom, [])) = true
      ∧ gives (.ringOpen 1 64 0 2000 35000) case331.served (fun t =>
          t.answered = some (.ok, [64, 0xA0, 5, 180, 0xB8, 0x88, 0, 0, 0, 0])) = true := by decide +kernel

/-- R13, R14: one description accepted, one overlapping, one unaligned. -/
theorem test_extent_load :
    gives (.extentLoad 1 3 [⟨7, 32, 1, 0, 0⟩, ⟨8, 33, 0, 0, 8⟩, ⟨9, 41, 1, 0, 8⟩]) base.served (fun t =>
      t.answered = some (.ok, [0, 0, 7, 0, 8, 0]) && (t.extent 7).state = .valid && t.mgmt.response.map Response.items = some 1)
      = true := by decide +kernel

/-- R15: an entry not in use is EMPTY, a RETIRING one BUSY, an EMPTY one NOT-FOUND. -/
theorem test_extent_clear : gives (.extentClear 1 3 [0, 3, 4]) base.served (fun t =>
    t.answered = some (.ok, [0, 0, 16, 0, 13, 0]) && (t.extent 0).state = .empty) = true := by decide +kernel

/-- R17 and 12.2: entry 1 as it stands. -/
theorem test_extent_scan : gives (.extentScan 1 1 1) base.served (fun t =>
    t.answered = some (.ok, [1, 0, 1, 2, 4, 0, 0, 0, 0, 0, 0, 0, 1, 0, 0, 0]) && t.mgmt.response.map Response.next = some 2)
    = true := by decide +kernel

/-- R135: a ring's job into a FINISHED slot is refused; R136, R137, R57: into an OPEN one it starts and opens serial 4. -/
theorem test_job_adopt :
    gives (.jobAdopt 1 64 0 1 1 0) base.served (fun t => t.answered = some (.slotState, [])) = true
      ∧ gives (.jobAdopt 1 64 1 1 0 2) base.served (fun t => t.answered = some (.ok, [1])
          && t.jobs.queue.map (fun j => (j.state, j.fence, j.forcedSequence)) = [(.running, some (.serial 3), some 5)]
          && t.sent.take 1 = [.jobCommand .read (256 + 256 * 17)]) = true := by decide +kernel

/-- R146: a WAITING job leaves with JOB-ENDED; no such job is NOT-FOUND. -/
theorem test_job_cancel :
    gives (.jobCancel 1 2) (base.inMode .config |>.jobbed [{ runner .idle with number := 2, state := .waiting }]).served (fun t =>
        t.jobs.queue = [] && t.mgmt.notices.map Notice.kind = [.jobEnded] && t.answered = some (.ok, [])) = true
      ∧ gives (.jobCancel 1 3) base.served (fun t => t.answered = some (.notFound, [])) = true := by decide +kernel

/-- The minute count is about to bring epoch 3 of ring 64 to its window and slot 0, the target of this job, to its expiry minute. -/
def expiring (j : Job) : State :=
  ((base.setRing 64 { base.ring 64 with window := 5 }).setRec 0 { state := .opened, expiry := some 105 }).jobbed [j]

/-- R142 and R141: the job whose last chunk the expiry of its chunk epoch loses is DONE with 1 lost, also when its target expires at that
event (R71); R138 and R146: with a chunk left it ends at that chunk. -/
theorem test_job_expiry :
    gives .minuteEvent (expiring (runner .cipher)) (fun t => t.jobs.queue = [] && (t.recSlot 0).state = .erasing
        && t.mgmt.notices.map (fun z => (z.kind, z.details)) = [(.jobDone, .jobDone 0 1 0), (.slotExpired, .nothing)]) = true
      ∧ gives .minuteEvent (expiring { runner .cipher with count := 2 }) (fun t => t.jobs.queue = [] && t.jobs.command = none
        && (t.extent 2).inUse = (base.extent 2).inUse
        && t.mgmt.notices.map (fun z => (z.kind, z.details)) = [(.jobEnded, .jobEnded .slotState 1 0 1 0), (.slotExpired, .nothing)]) = true := by
  decide +kernel

/-- R147 and 12.2: the view of a RUNNING job in stage READ with fence NONE. -/
theorem test_job_scan : gives (.jobScan 1) ((base.jobbed [runner .read]).issued .job (some .read)).served (fun t =>
    t.answered = some (.ok, [1, 2, 1, 64, 0, 2, 0, 0, 1, 0, 0, 0, 1, 0, 0, 0, 2, 0, 0, 0] ++ List.replicate 12 0)) = true := by
  decide +kernel

/-- R150: a slot that is not FINISHED gives SLOT-STATE, format number 2 BAD-WRAP. -/
theorem test_export_open :
    gives (.exportOpen 1 1 0 1) base.served (fun t => t.answered = some (.slotState, [])) = true
      ∧ gives (.exportOpen 1 1 1 2) base.served (fun t => t.answered = some (.badWrap, [])) = true := by decide +kernel

/-- R157: no READ of the slot in flight: the session is NONE and the slot FINISHED again. -/
theorem test_export_end : gives (.exportEnd 1) moveBase.served (fun t =>
    t.session.state = .idle && t.session.endCause = some .ended && (t.recSlot 1).state = .finished
      && (t.keyEntry .transit).isNone && t.answered = some (.ok, [])) = true := by decide +kernel

/-- R160: ACTIVE, MOVE, slot 1, no end cause, cursor 1, ..., the key present. -/
theorem test_export_view : gives (.exportView 1) moveBase.served (fun t =>
    t.answered.map (fun x => x.2.take 12) = some [1, 1, 1, 1, 1, 0, 0, 1, 1, 0, 0, 0]) = true := by decide +kernel

/-- R130: UP at 6 Gb/s, NORMAL, 9, one transfer and no job outstanding, none waiting, the summary 0 1 0 and then clear. -/
theorem test_link_view :
    gives (.linkView 1) ({ base with disk := { base.disk with failureSeen := true } }.issued (.tag 1)).served
      (fun t => t.answered = some (.ok, [0, 1, 3, 0, 9, 1, 0, 0, 0, 1, 0]) && !t.disk.failureSeen) = true := by decide +kernel

/-- R131: the reset begins and the request waits. -/
theorem test_link_restore : gives (.linkRestore 1) base.served (fun t =>
    t.disk.link = .resetting && t.disk.health = 9 && t.answered = some (.pending, [])) = true := by decide +kernel

/-- R163, R166: an IDENT block (kind 1, number 9, body length 0); a kind outside the catalogue is BAD-REQUEST. -/
theorem test_request_block :
    gives (.dataFromController 15 (BitVec.ofNat 4096 (1 + 65536 * 9))) base.served (fun t =>
        t.mgmt.response.map (fun r => (r.kind, r.number, r.result)) = some (1, 9, .ok)) = true
      ∧ gives (.dataFromController 15 (BitVec.ofNat 4096 (0x1A + 65536 * 9))) base.served (fun t =>
        t.mgmt.response.map (fun r => (r.kind, r.number, r.result)) = some (0x1A, 9, .badRequest)) = true := by decide +kernel

/-! ### Witnesses: for every statement, states and operands that meet its hypotheses -/

/-- `StepRunsFront`: an empty queue. -/
theorem witness_StepRunsFront : State.reset.pending = [] := rfl

/-- `EveryCommandCompletes`: a part without power and another command. -/
theorem witness_EveryCommandCompletes :
    (∀ speed, Instr.tick ≠ .powerOn speed) ∧ ({ base with powered := false } : State).powered = false := ⟨nofun, rfl⟩

/-- `PowerOnStarts`. -/
theorem witness_PowerOnStarts : ({ base with powered := false } : State).powered = false := rfl

/-- `PowerLossDamages`: a write of slot 63's record and one of the time record. -/
theorem witness_PowerLossDamages :
    (base.storing ⟨.slot 63, .slot {}, false, false, 0⟩).powered = true ∧ (base.storing ⟨.time, .time 104, false, false, 0⟩).powered = true :=
  ⟨rfl, rfl⟩

/-- The part at a load event, with a stored time record and a stored record 0 and 63. -/
def loadingAt (l : Loading) (time : StoredTime) (r : StoredRec) (running : Bool) : State :=
  { State.reset with
    mgmt := { loading := l, request := some ⟨5, 3, .restart⟩ }
    clock := { running }
    store := { time, records := [(0, r), (63, r)] } }

/-- `ClockRestored`: an intact record at the edge of saturation, and a damaged one. -/
theorem witness_ClockRestored :
    let s := loadingAt .timeRecord { minutes := 4294967281 } {} false
    let d := loadingAt .timeRecord { damaged := true } {} false
    s.powered = true ∧ s.mgmt.loading = .timeRecord ∧ s.store.time.damaged = false ∧ d.store.time.damaged = true := by decide

/-- `RecordLoads`: slots 0 and 63, with a damaged, an EMPTY, an OPEN and a FINISHED record. -/
theorem witness_RecordLoads :
    [0, 63].all (fun n =>
      [({ damaged := true } : StoredRec), { state := .empty, floor := 1 }, { state := .opened }, { state := .finished }].all fun r =>
        let s := loadingAt (.slot n) {} r true
        s.powered && s.atRest && s.mgmt.mode = .starting && s.mgmt.loading = .slot n && s.storedRec n = r && n ≤ 63) = true := by
  decide +kernel

/-- `LoadingCompletes`: with the clock set and not set, a RESTART waiting. -/
theorem witness_LoadingCompletes :
    [true, false].all (fun b =>
      let s := loadingAt (.slot 63) {} { state := .opened, expiry := some 90 } b
      s.powered && s.atRest && s.mgmt.mode = .starting && s.mgmt.loading = .slot 63 && s.clock.running = b
        && s.mgmt.request = some ⟨5, 3, .restart⟩) = true := by decide +kernel

/-- The state with the disk link being reset. -/
def State.resetting (s : State) (ticks : Nat) : State :=
  { s with disk := { s.disk with link := .resetting, resetTicks := ticks, speed := none, outstanding := [] } }

/-- The state at this tick of the minute. -/
def State.atTick (s : State) (n : Nat) : State := { s with clock := { s.clock with ticks := n } }

/-- `TickCounts`: a timeout of 2 at tick 598; the reset at 98 and 99 ticks; tick 599; no clock yet. -/
theorem witness_TickCounts :
    let s : State := { base.atTick 598 with disk := { base.disk with outstanding := [⟨.tag 1, none, some 2⟩] } }
    let r := (base.atTick 598).resetting 98
    (s.powered = true ∧ s.clock.running = true ∧ s.clock.ticks < 599 ∧ s.atRest = true ∧ s.disk.link ≠ .resetting
        ∧ s.disk.outstanding.map Outstanding.timeout = [some 2])
      ∧ (r.powered = true ∧ r.clock.running = true ∧ r.clock.ticks < 599 ∧ r.atRest = true ∧ r.disk.link = .resetting
        ∧ r.disk.resetTicks < 99)
      ∧ ((base.atTick 599).clock.running = true ∧ (base.atTick 599).clock.ticks = 599)
      ∧ ((base.resetting 99).disk.link = .resetting ∧ 99 ≤ (base.resetting 99).disk.resetTicks)
      ∧ (State.reset.powered = true ∧ State.reset.clock.running = false) := by decide +kernel

/-- `MinuteEventActs`: a rise to 105, an epoch of ring 64 at its window, a loaded slot with an expiry minute above the new count; a
job that ciphers its last chunk from the epoch that expires. -/
theorem witness_MinuteEventActs :
    let s := (base.setRing 64 { base.ring 64 with window := 5 }).setRec 63 { state := .opened, expiry := some 106 }
    (s.powered = true ∧ s.clock.running = true)
      ∧ (s.clock.minutes < 4294967295 ∧ (s.clock.minutes + 1) % 15 = 0)
      ∧ ((s.ring 64).state = .running ∧ (s.ring 64).epochs = [⟨3, 4, 100, .live⟩] ∧ 100 + (s.ring 64).window ≤ 104 + 1)
      ∧ (s.mgmt.loading = .finished ∧ (s.recSlot 63).expiry = some 106 ∧ (s.recSlot 63).state = .opened)
      ∧ (expiring (runner .cipher)).headJob = some (runner .cipher)
      ∧ ((expiring (runner .cipher)).ring 64).window + 100 ≤ 105 ∧ (runner .cipher).count = (runner .cipher).done + 1 := by decide +kernel

/-- The one-block burst of entry 2 at a block. -/
def burstAt (first : Nat) : BurstRange := ⟨first, 1, ⟨first, 1, some 2⟩⟩

/-- The state with a sweep of ring 64's serial 3 at an ordinal. -/
def sweepAt (position : Nat) : State :=
  { base with
    sweep := some ⟨64, 3, position⟩, sweepQueue := [⟨64, 4⟩]
    rings := [(64, { base.ring 64 with epochs := [⟨3, 4, 100, .sweeping⟩, ⟨4, 5, 101, .sweeping⟩] })] }

/-- `SweepPassesTag`: the first and the last ordinal. -/
theorem witness_SweepPassesTag :
    [0, 15].all (fun n => (sweepAt n).powered && (sweepAt n).sweep = some ⟨64, 3, n⟩ && n < ((sweepAt n).ring 64).size) = true := by
  decide +kernel

/-- A sweep of ring 64's serial 0, which is the next serial, with a WRITE that awaits it, or with a job. -/
def awaited : State :=
  { base with
    sweep := some ⟨64, 0, 0⟩
    rings := [(64, { base.ring 64 with lastSerial := some 15, epochs := [⟨0, 1, 90, .sweeping⟩] })] }

/-- The WRITE that awaits it. -/
def awaiter : Transfer := { moving .write 1 (256 + 256 * 16) 1 (some 2) 1 with state := .held }

/-- `SweepEndsEpoch`: a sweep that has passed no tag yet and one that has passed all; a WRITE that awaits it, with the engine free and at
work; a STARTING job on the ring that may open then, and one that still may not. -/
theorem witness_SweepEndsEpoch :
    let free : State := (awaited.setRing 64 { awaited.ring 64 with held := [(1, 0)] }).holding awaiter
    let work : State := { free.holding (moving .write 9 256 9 (some 0) 1) with
      engine := { burst := some ⟨.tag 9, 256, [7], .encipher pair, 0, 0, [.ciphertext], false, false⟩ } }
    let j : Job := { runner .idle with state := .starting, fence := none, forcedSequence := none, chunkEpoch := none }
    let full := { awaited.ring 64 with epochs := ⟨0, 1, 90, .sweeping⟩ :: (List.range 8).map fun n => ⟨n + 1, n + 2, 97 + n, .live⟩ }
    ([free, work].all fun s => s.powered && s.transfersOk && s.atRest && s.sweep = some ⟨64, 0, 0⟩ && s.tagAt 1 ≠ some 0
        && s.headJob.isNone && s.transfer 1 = some awaiter && s.nextBurst awaiter = some (burstAt (256 + 256 * 16))
        && s.session.held.isEmpty && (s.ring 64).state = .running && (s.extent 2).slot = 64 && (s.ring 64).liveEpochs.isEmpty
        && s.keyEntry (.slot 64) = some ⟨.slot 64, 5, pair⟩ && awaiter.lastChunk ≠ some 16) = true
      ∧ free.engine.burst = none
      ∧ ([awaited.jobbed [j], (awaited.setRing 64 full).jobbed [j]].all fun s => s.atRest && s.headJob = some j && s.mgmt.mode = .run
        && s.disk.healthState = .normal && 1 ≤ s.mgmt.setup.bgLimit && s.reverseLookup 64 1 = some (2, 17)) = true
      ∧ (full.liveEpochs.length = 8 ∧ (awaited.ring 64).liveEpochs.length = 0) := by decide +kernel

/-- `SweepEndsEpoch`, where nothing awaits the sweep. -/
theorem witness_SweepEndsEpoch_plain :
    (∀ n ∈ [0, 16], (sweepAt n).powered = true ∧ (sweepAt n).atRest = true ∧ (sweepAt n).sweep = some ⟨64, 3, n⟩
        ∧ (∀ h ∈ ((sweepAt n).ring 64).held, h.2 ≠ 3) ∧ Table.wf none (sweepAt n).tags = true)
      ∧ (∀ j, (sweepAt 0).headJob = some j → j.state ≠ .starting)
      ∧ ∀ c, c < 0 → (sweepAt 0).tagAt c ≠ some 3 := ⟨by decide +kernel, nofun, nofun⟩

/-- `TimeoutResetsLink`: health 247 and 248, for a transfer and for the job. -/
theorem witness_TimeoutResetsLink :
    [247, 248].all (fun h =>
      let b : State := { base with disk := { base.disk with health := h } }
      let s := (b.holding (moving .read 1 256 9 (some 0) 3)).issued (.tag 1)
      let j := (b.jobbed [runner .read]).issued .job (some .read)
      s.powered && s.transfersOk && s.disk.link ≠ .resetting && s.disk.healthState ≠ .cutoff
        && s.disk.outstanding.filter (fun x => x.owner = .tag 1) = [⟨.tag 1, none, some 50⟩]
        && s.transfer 1 = some (moving .read 1 256 9 (some 0) 3)
        && j.transfersOk && j.disk.outstanding.filter (fun x => x.owner = .job) = [⟨.job, some .read, some 50⟩]) = true := by
  decide +kernel

/-- A QUEUED transfer of tag 4. -/
def queued4 : Transfer := { moving .read 4 256 9 (some 0) 0 with state := .queued }

/-- The state with `queued4` at the head of the issue queue. -/
def State.queueing (s : State) : State := { s.holding queued4 with issueQueue := [4] }

/-- `LinkResetEnds`: a queued transfer to issue, a LINK-RESTORE that waits, and a link that is UP. -/
theorem witness_LinkResetEnds :
    let s := (base.resetting 3).queueing
    let r : State := { base.resetting 3 with mgmt := { base.mgmt with request := some ⟨0x18, 6, .linkRestore⟩ } }
    (s.powered = true ∧ s.disk.link = .resetting ∧ s.mgmt.request = none ∧ s.issueQueue = 4 :: [] ∧ s.transfer 4 = some queued4
        ∧ s.jobs.queue = [] ∧ s.jobs.command = none ∧ s.disk.healthState ≠ .cutoff ∧ s.disk.outstanding.length < s.mgmt.setup.depth)
      ∧ (r.disk.link = .resetting ∧ r.mgmt.request = some ⟨0x18, 6, .linkRestore⟩) ∧ base.disk.link ≠ .resetting := by decide +kernel

/-- `LinkLossCutsOff`: a reset that fails with LINK-RESTORE waiting, and the loss of a link that is UP. -/
theorem witness_LinkLossCutsOff :
    let r : State := { base.resetting 3 with mgmt := { base.mgmt with request := some ⟨0x18, 6, .linkRestore⟩ } }
    (r.powered = true ∧ r.transfersOk = true ∧ r.disk.link = .resetting ∧ r.disk.healthState ≠ .cutoff)
      ∧ (base.queueing.transfersOk = true ∧ base.queueing.disk.link = .up ∧ base.queueing.disk.healthState ≠ .cutoff) := by
  decide +kernel

/-- An ACTIVE transfer of tag 1 that names no blocks or some. -/
def active1 (kind : TransferKind) (first count : Option Nat) : Transfer :=
  { tag := 1, kind, handling := .passThrough, first, count, state := .active }

/-- `CommandEnds`: a WRITE, a FLUSH, an OTHER and a READ, at health 247 and 248; a READ with every block delivered; a PROTECTED READ of a
session's slot at rest, ACTIVE and HELD. -/
theorem witness_CommandEnds :
    let r := moving .read 1 (256 + 256 * 5) 9 (some 1) 3
    let a := (moveBase.holding r).issued (.tag 1)
    let h := (moveBase.holding { r with state := .held }).issued (.tag 1)
    ([247, 248].all fun health =>
      [active1 .write (some 0) (some 8), active1 .flush none none, active1 (.other 0xEC .none) none none, active1 .read (some 0) (some 8),
        { active1 .read (some 0) (some 8) with delivered := 8 }].all
        fun u =>
          let s := (({ base with disk := { base.disk with health } }).holding u).issued (.tag 1)
          s.powered && s.transfersOk && s.isOutstanding (.tag 1) && s.transfer 1 = some u && u.firstError.isNone && !s.issueQueue.contains 1
            && u.first.isSome = u.count.isSome && s.session.state = .idle) = true
      ∧ (active1 .read (some 0) (some 8)).delivered < 8
      ∧ ([a, { h with session := { h.session with held := [(1, 1)] } }].all fun s => s.transfersOk && s.isOutstanding (.tag 1)
        && !s.issueQueue.contains 1 && s.atRest && (s.transfer 1).any fun u => u.kind = .read && u.delivered < u.count.getD 0
          && (u.state = .active || s.inHeldList 1)) = true := by
  decide +kernel

/-- `JobCommandEnds`: the WRITE and the READ of the last chunk, at health 247; the READ and the WRITE of an earlier chunk with the next
mapped, in RUN and in CONFIG; a chunk whose tag is empty, of a SWEEPING epoch, of the forced epoch and of one before it, with the engine free and at
work. -/
theorem witness_JobCommandEnds :
    let eps : List Epoch := [⟨2, 3, 90, .sweeping⟩, ⟨3, 4, 100, .live⟩, ⟨4, 5, 104, .live⟩]
    let at_ := fun (stage : JobStage) (tag : Option Nat) (s : State) =>
      ({ ((s.setRing 64 { s.ring 64 with epochs := eps, lastSerial := some 4, sequence := 5 }).setTag 1 tag).jobbed
          [{ runner stage with count := 2 }] with sweep := some ⟨64, 2, 0⟩ } : State).issued .job (some stage)
    let work : State := { base with engine := { burst := some ⟨.tag 9, 256, [7], .encipher pair, 0, 0, [.ciphertext], false, false⟩ } }
    ([JobStage.write, .read].all fun g =>
      let s := (({ base with disk := { base.disk with health := 247 } }).jobbed [runner g]).issued .job (some g)
      s.powered && s.jobsOk && s.isOutstanding .job && s.headJob = some (runner g) && (runner g).state = .running
        && (runner g).count = (runner g).done + 1 && s.disk.health + 8 ≤ 255) = true
      ∧ ([JobStage.write, .read].all fun g => [base, base.inMode .config].all fun b =>
        let s := at_ g (some 3) b
        s.jobsOk && s.isOutstanding .job && s.headJob = some { runner g with count := 2 } && s.atRest && s.tablesOk && s.countsOk
          && s.disk.healthState = .normal && 1 ≤ s.mgmt.setup.bgLimit && s.reverseLookup 64 2 = some (2, 18)) = true
      ∧ ([none, some 2, some 3, some 4].all fun tag => [base, work].all fun b =>
        let s := at_ .read tag b
        s.powered && s.jobsOk && s.isOutstanding .job && s.atRest && s.tablesOk && s.countsOk && s.tagAt 1 = tag
          && (s.ring 64).state = .running && (s.ring 64).epochs = eps && s.keyPair (.epoch 64 3) = some pair
          && s.keyPair (.slot 0) = some pair) = true
      ∧ (runner .read).forcedSequence = some 5 := by decide +kernel

/-- `DataMoves`: pass-through data both ways, an OTHER both ways, hand-on both ways with the last block of an ended READ, a block of a
chunk above the cursor, the last block of a PASS-THROUGH READ that is not ended, the job's WRITE. -/
theorem witness_DataMoves :
    let pt := fun (u : Transfer) => (base.holding u).issued (.tag 1)
    let w := active1 .write (some 0) (some 8)
    let r := active1 .read (some 0) (some 8)
    let out : Transfer := { w with arrived := 1, output := [⟨8, .relayed⟩] }
    let ahead : Transfer := { moving .read 1 (256 + 256 * 6) 1 (some 1) 0 with output := [⟨8, .transit 1 2 false⟩] }
    let early : Transfer := { r with arrived := 8, delivered := 7, output := [⟨8, .relayed⟩] }
    let last : Transfer := { r with arrived := 8, delivered := 7, commandEnded := true, state := .ending, output := [⟨8, .relayed⟩] }
    let job : State := { (base.jobbed [runner .write]).issued .job (some .write) with
      jobs := { (base.jobbed [runner .write]).jobs with recoded := [7, 8], sent := 1 } }
    ([w, r].all fun u =>
        (pt u).powered && (pt u).transfersOk && (pt u).transfer 1 = some u && (pt u).isOutstanding (.tag 1) && (pt u).atRest
          && u.handling = .passThrough && u.state = .active && u.arrived < u.count.getD 0) = true
      ∧ ([DataDirection.toDisk, .fromDisk].all fun d =>
          let u := active1 (.other 1 d) none none
          (pt u).transfersOk && (pt u).transfer 1 = some u && (pt u).isOutstanding (.tag 1) && u.state = .active) = true
      ∧ ((moveBase.holding ahead).transfersOk && (moveBase.holding ahead).transfer 1 = some ahead
          && (moveBase.holding ahead).session.cursor = some 1) = true
      ∧ ((pt early).transfersOk && (pt early).transfer 1 = some early && early.handling = .passThrough && !early.commandEnded
          && decide (early.count.getD 0 ≤ early.delivered + 1)) = true
      ∧ ((pt out).transfersOk && (pt out).transfer 1 = some out && (pt { out with kind := .read }).atRest) = true
      ∧ ((base.holding last).transfersOk && (base.holding last).transfer 1 = some last
          && decide (last.count.getD 0 ≤ last.delivered + 1)) = true
      ∧ (job.powered && job.jobs.recoded[job.jobs.sent]? = some 8
          && (job.disk.outstanding.find? fun c => c.owner = .job).any (fun c => c.stage = some .write)) = true := by decide +kernel

/-- The fragment of `moving`. -/
def wholeFragment (first count : Nat) (entry : Option Nat) : Fragment := ⟨first, count, entry⟩

/-- The burst that `moving` completes: eight blocks, or those left. -/
def burstOf (first count : Nat) (entry : Option Nat) (n : Nat) : BurstRange := ⟨first, n, ⟨first, count, entry⟩⟩

/-- `WriteBurstTaken`: chunk 1 below the high ordinal, chunk 2 at it, and an ERASING slot. -/
theorem witness_WriteBurstTaken :
    let w := moving .write 1 (256 + 256 * 1 + 8) 9 (some 0) 7
    let w' := moving .write 15 (256 + 256 * 2 + 255) 1 (some 0) 0
    let v := moving .write 1 (256 + 256 * 8) 1 (some 3) 0
    ((base.holding w).completesBurst 1 w (burstOf (256 + 256 * 1 + 8) 9 (some 0) 8) = true
        ∧ (base.recSlot 0).state = .opened ∧ base.keyPair (.slot 0) = some pair ∧ 1 < (base.recSlot 0).high)
      ∧ ((base.holding w').completesBurst 15 w' (burstOf (256 + 256 * 2 + 255) 1 (some 0) 1) = true ∧ (base.recSlot 0).high ≤ 2)
      ∧ ((base.holding v).completesBurst 1 v (burstOf (256 + 256 * 8) 1 (some 3) 1) = true ∧ (base.extent 3).slot = 2
        ∧ (base.recSlot 2).state = .erasing) := by decide +kernel

/-- A WRITE of one block into the first chunk of ring 64, at a count of minutes, with these epochs and this last serial. -/
def ringWrite (minutes : Nat) (epochs : List Epoch) (last : Option Nat) (tag0 : Option Nat) (chunk : Option Nat) : Transfer × State :=
  let w : Transfer := { moving .write 1 (256 + 256 * 16) 1 (some 2) 0 with lastChunk := chunk }
  (w, ({ base with
        clock := { base.clock with minutes }
        tags := match tag0 with
          | some n => [(0, some n)]
          | none => []
        rings := [(64, { base.ring 64 with epochs, lastSerial := last })] } : State).holding w)

/-- The burst of `ringWrite`. -/
def ringBurst : BurstRange := burstOf (256 + 256 * 16) 1 (some 2) 1

/-- Eight LIVE epochs, serials 0 to 7. -/
def eightLive : List Epoch := (List.range 8).map fun n => ⟨n, n + 1, 97 + n, .live⟩

/-- `RingWriteDecides`: the tag kept; a current epoch of age L - 1; an open due at age L and at an empty list; the next serial
SWEEPING; eight LIVE. -/
theorem witness_RingWriteDecides :
    let live : Epoch := ⟨3, 4, 100, .live⟩
    let kept := ringWrite 109 [live] (some 3) (some 3) (some 16)
    let young := ringWrite 109 [live] (some 3) none none
    let old := ringWrite 110 [live] (some 3) none none
    let none_ := ringWrite 110 [] none (some 9) (some 16)
    let swept := ringWrite 110 [⟨0, 1, 90, .sweeping⟩] (some 15) none none
    let full := ringWrite 114 eightLive (some 7) none none
    ([kept, young, old, none_, swept, full].all fun x => x.2.completesBurst 1 x.1 ringBurst && (x.2.ring 64).state = .running
        && (x.2.extent 2).slot = 64 && x.1.kind = .write) = true
      ∧ (kept.1.lastChunk = some 16 ∧ kept.2.tagAt 0 = some 3 ∧ (kept.2.ring 64).isLive 3 = true
        ∧ kept.2.keyPair (.epoch 64 3) = some pair)
      ∧ (young.1.lastChunk ≠ some 16 ∧ (young.2.ring 64).liveEpochs.getLast? = some live
        ∧ young.2.clock.minutes < live.openMinute + (young.2.ring 64).epochLength)
      ∧ (old.1.lastChunk ≠ some 16 ∧ live.openMinute + (old.2.ring 64).epochLength ≤ old.2.clock.minutes
        ∧ (old.2.ring 64).liveEpochs.length < 8 ∧ (old.2.ring 64).isSweeping 4 = false ∧ old.2.keyEntry (.slot 64) = some ⟨.slot 64, 5, pair⟩)
      ∧ ((none_.2.ring 64).lastSerial = none ∧ (none_.2.ring 64).liveEpochs = [] ∧ (none_.2.ring 64).isLive 9 = false)
      ∧ ((swept.2.ring 64).lastSerial = some 15 ∧ (swept.2.ring 64).isSweeping 0 = true)
      ∧ ((full.2.ring 64).liveEpochs.head? = some ⟨0, 1, 97, .live⟩ ∧ 7 ≤ (full.2.ring 64).liveEpochs.tail.length
        ∧ (full.2.ring 64).liveEpochs.getLast? = some ⟨7, 8, 104, .live⟩) := by decide +kernel

/-- A READ of one block of chunk `p` through an entry, with its command outstanding. -/
def readOf (s : State) (p : Nat) (entry : Option Nat) : Transfer × State :=
  let r := moving .read 1 (256 + 256 * p) 1 entry 0
  (r, (s.holding r).issued (.tag 1))

/-- The hypotheses of `ReadBurstDecided` and of `ExportReadDecided` on such a READ. -/
def readReady (x : Transfer × State) (p : Nat) (entry : Option Nat) : Bool :=
  x.2.completesBurst 1 x.1 (burstOf (256 + 256 * p) 1 entry 1) && x.1.kind = .read && x.2.isOutstanding (.tag 1)

/-- `ReadBurstDecided`: an unassigned fragment; ring chunks that are empty, LIVE and expired; an ERASING ring; an ERASING slot; OPEN
at and below the high ordinal; FINISHED at and below its length and below its floor. -/
theorem witness_ReadBurstDecided :
    let floored := base.setRec 1 { base.recSlot 1 with floor := 2 }
    let longer := (base.setRec 1 { base.recSlot 1 with length := 3 })
    let dropped := base.setRing 64 { base.ring 64 with state := .erasing }
    let named : State := { dropped with extents := dropped.extents.map fun x => (x.1, { x.2 with inUse := 1 }) }
    (readReady (readOf base 40 none) 40 none = true)
      ∧ (readReady (readOf base 16 (some 2)) 16 (some 2) = true ∧ base.tagAt 0 = none)
      ∧ (readReady (readOf base 17 (some 2)) 17 (some 2) = true ∧ base.tagAt 1 = some 3 ∧ (base.ring 64).isLive 3 = true)
      ∧ (readReady (readOf base 18 (some 2)) 18 (some 2) = true ∧ base.tagAt 2 = some 2 ∧ (base.ring 64).isLive 2 = false)
      ∧ (readReady (readOf named 16 (some 2)) 16 (some 2) = true ∧ (named.ring 64).state = .erasing)
      ∧ (readReady (readOf base 8 (some 3)) 8 (some 3) = true ∧ (base.recSlot 2).state = .erasing)
      ∧ (readReady (readOf base 2 (some 0)) 2 (some 0) = true ∧ (base.recSlot 0).high ≤ 2)
      ∧ (readReady (readOf base 1 (some 0)) 1 (some 0) = true ∧ 1 < (base.recSlot 0).high ∧ base.keyPair (.slot 0) = some pair)
      ∧ (readReady (readOf longer 7 (some 1)) 7 (some 1) = true ∧ (longer.recSlot 1).length ≤ 3)
      ∧ (readReady (readOf base 7 (some 1)) 7 (some 1) = true ∧ 3 < (base.recSlot 1).length ∧ base.session.state = .idle)
      ∧ (readReady (readOf floored 5 (some 1)) 5 (some 1) = true ∧ 1 < (floored.recSlot 1).floor)
      ∧ (readReady (readOf floored 6 (some 1)) 6 (some 1) = true ∧ (floored.recSlot 1).floor ≤ 2) := by decide +kernel

/-- `ExportReadDecided`: COPY below the floor, at it, at the length; MOVE below the cursor, at it with and without the floor written,
beyond it with and without advance pending, at the length; COPY and MOVE with the session ENDING. -/
theorem witness_ExportReadDecided :
    let copy := (base.exporting .copy 1 none).setRec 1 { base.recSlot 1 with floor := 1, length := 3 }
    let move := moveBase.setRec 1 { moveBase.recSlot 1 with length := 3, floor := 2, persistedFloor := 2 }
    let held := moveBase.setRec 1 { moveBase.recSlot 1 with length := 3, floor := 3 }
    let ahead : State := { move with session := { move.session with advancePending := true } }
    ([4, 5, 7].all fun p => readReady (readOf copy p (some 1)) p (some 1)) = true
      ∧ (copy.session.state = .active ∧ copy.session.slot = some 1 ∧ copy.session.mode = some .copy
        ∧ (copy.recSlot 1).state = .finished ∧ copy.keyPair .transit = some pair ∧ copy.keyPair (.slot 1) = some pair)
      ∧ ([4, 5, 6, 7].all fun p => readReady (readOf move p (some 1)) p (some 1)) = true
      ∧ (move.session.mode = some .move ∧ (move.recSlot 1).state = .moving ∧ move.session.cursor = some 1
        ∧ 1 < (move.recSlot 1).persistedFloor ∧ move.keyPair .transit = some pair)
      ∧ (readReady (readOf ahead 6 (some 1)) 6 (some 1) = true ∧ ahead.session.advancePending = true
        ∧ (ahead.recSlot 1).persistedFloor ≤ 2 ∧ (ahead.recSlot 1).floor ≤ 2)
      ∧ (readReady (readOf held 5 (some 1)) 5 (some 1) = true ∧ (held.recSlot 1).persistedFloor ≤ 1 ∧ 1 < (held.recSlot 1).floor)
      ∧ (readReady (readOf moveBase 5 (some 1)) 5 (some 1) = true ∧ (moveBase.recSlot 1).floor ≤ 1)
      ∧ ([copy, move, held].all fun s =>
        let e : State := { s with session := { s.session with state := .ending } }
        readReady (readOf e 5 (some 1)) 5 (some 1)) = true := by decide +kernel

/-- `MoveDelivered`: one chunk before the length and at it. -/
theorem witness_MoveDelivered :
    [3, 2].all (fun length =>
      let u : Transfer := { moving .read 1 (256 + 256 * 5 + 255) 1 (some 1) 0 with output := [⟨8, .transit 1 1 true⟩] }
      let s := (moveBase.setRec 1 { moveBase.recSlot 1 with length }).holding u
      s.powered && s.transfersOk && s.transfer 1 = some u && u.handling = .guarded && s.session.state = .active && s.session.slot = some 1
        && s.session.mode = some .move && s.session.cursor = some 1 && (s.recSlot 1).state = .moving) = true := by decide +kernel

/-- A state whose engine has a burst of tag 1. -/
def engaged (c : Composition) (withdrawn : Bool) : Transfer × State :=
  let u : Transfer := { moving .read 1 256 1 (some 0) 0 with arrived := 1, covered := 1 }
  (u, { base.holding u with engine := { burst := some ⟨.tag 1, 256, [7], c, 0, 0, [.ciphertext], false, withdrawn⟩ } })

/-- `CipheringEnds`: each composition, and a withdrawn burst. -/
theorem witness_CipheringEnds :
    [(Composition.encipher pair, false), (.decipher pair, false), (.transit pair pair, false), (.decipher pair, true)].all (fun x =>
      let y := engaged x.1 x.2
      y.2.powered && y.2.transfersOk && y.2.transfer 1 = some y.1
        && ({ y.2 with
              engine := { y.2.engine with burst := none }
              transfers := y.2.transfers.map fun t => if t.tag = 1 then { y.1 with output := y.1.output ++ [] } else t } : State).atRest)
      = true := by decide +kernel

/-- `AdoptionBurstEnds`: bursts 30 and 31 of the chunk. -/
theorem witness_AdoptionBurstEnds :
    [30, 31].all (fun n =>
      let s : State := { base.jobbed [runner .cipher] with
        engine := { burst := some ⟨.job, n, [7], .adopt pair pair, 0, 0, [.ciphertext], true, false⟩ } }
      s.powered && s.atRest && s.headJob = some (runner .cipher) && s.engine.burst.all (fun b => b.inputs.length ≤ b.origins.length)
        && (s.ring 64).epochs.any (fun e => e.serial = 3 && e.sequence = 4 && e.state = .live)
        && s.keyPair (.epoch 64 3) = some pair && s.keyPair (.slot 0) = some pair
        && s.reverseLookup 0 2 = some (0, 2)) = true := by decide +kernel

/-- `StoreWriteEnds`: a plain write of slot 63 and one of the session's slot with a held burst, a waiting SLOT-OPEN, SLOT-FINISH and
SLOT-DROP, an erasure of a slot that is named and of one that is not. -/
theorem witness_StoreWriteEnds :
    let w := fun (n : Nat) (erasure answers : Bool) => (⟨.slot n, .slot { floor := 2 }, erasure, answers, 2⟩ : StoreWrite)
    let asked := fun (q : Wait) (s : State) => ({ s with mgmt := { s.mgmt with request := some ⟨8, 3, q⟩ } } : State)
    let bare : State := { base with extents := [] }
    ((base.storing (w 63 false false)).powered && (base.storing (w 63 false false)).atRest
        && (base.storing (w 63 false false)).session.state = .idle) = true
      ∧ ((moveBase.storing (w 1 false false)).session.state ≠ .idle ∧ (moveBase.storing (w 1 false false)).session.slot = some 1)
      ∧ ((asked (.slotOpen 0) (base.storing (w 0 false true))).atRest
          && (asked (.finishWrite 0 2) (base.storing (w 0 false true))).atRest) = true
      ∧ ((asked (.drop 2) (bare.storing (w 2 true true))).atRest && (bare.recSlot 2).state = .erasing && !bare.named 2) = true
      ∧ ((base.storing (w 2 true false)).atRest && base.named 2 && (base.recSlot 2).state = .erasing) = true := by decide +kernel

/-- `TimeWriteEnds`: a save, and the write a CLOCK-ADVANCE waits on, with an epoch and an expiry minute it reaches. -/
theorem witness_TimeWriteEnds :
    let s := base.storing ⟨.time, .time 180, false, true, 0⟩
    let a : State := { s with
      mgmt := { s.mgmt with request := some ⟨0x19, 3, .clockAdvance⟩ }, clock := { s.clock with target := some 180 } }
    (base.storing ⟨.time, .time 105, false, false, 0⟩).powered = true
      ∧ (a.powered = true ∧ a.mgmt.request = some ⟨0x19, 3, .clockAdvance⟩ ∧ a.clock.target = some 180
        ∧ a.store.writer = some ⟨.time, .time 180, false, true, 0⟩ ∧ (a.ring 64).state = .running
        ∧ (a.ring 64).epochs = [⟨3, 4, 100, .live⟩] ∧ 100 + (a.ring 64).window ≤ 180 ∧ a.mgmt.loading = .finished) := by decide +kernel

/-- `ControllerLinkReset`: a link that is UP, one being reset, a port in CUTOFF; two transfers that hold a RETIRING entry, and the only WRITE
in flight of a slot with its finish pending. -/
theorem witness_ControllerLinkReset :
    let c : State := { base with disk := { base.disk with link := .down, healthState := .cutoff } }
    let w : Transfer := { moving .write 1 256 9 (some 0) 3 with writeSlots := [0] }
    let s := ((base.setExtent 0 ⟨.retiring, 0, 2, 0, 0, 2⟩).setRec 0 { base.recSlot 0 with finishPending := true, inFlight := 1 }).holding w
      |>.holding (moving .read 2 256 9 (some 0) 3)
    [base.queueing, (base.resetting 3).queueing, c, s].all (fun s => s.powered && s.transfersOk) = true
      ∧ (s.tablesOk = true ∧ s.jobs.queue = [] ∧ (s.recSlot 0).state = .opened ∧ s.transfers.flatMap Transfer.writeSlots = [0]
        ∧ (s.transfers.flatMap fun u => u.fragments.filter fun f => f.entry = some 0).length = 2) := by decide +kernel

/-- 20 entries of one chunk each, so that 20 chunks give 20 fragments. -/
def splitBase : State := { base with extents := (List.range 20).map fun i => (i, ⟨.valid, i, 0, 0, i, 0⟩) }

/-- `PortRefusals`: a busy tag; CUTOFF; in RUN a command over the first edge, over the last edge, of 17 fragments, with an unassigned
fragment at its end, into a slot that is FINISHED after one that is OPEN. -/
theorem witness_PortRefusals :
    let cut : State := { base with disk := { base.disk with link := .down, healthState := .cutoff } }
    (base.queueing.powered = true ∧ (base.queueing.transfer 4).isSome = true)
      ∧ (cut.transfer 1 = none ∧ cut.disk.healthState = .cutoff)
      ∧ (base.transfer 1 = none ∧ base.disk.healthState ≠ .cutoff ∧ base.mgmt.mode = .run ∧ base.mgmt.setup.first = 256
        ∧ 256 + 256 * base.mgmt.setup.length = 16640)
      ∧ (255 < 256 ∧ 256 < 255 + 2 ∧ 256 ≤ 16639 ∧ 16640 < 16639 + 2)
      ∧ ((splitBase.fragmentsOf 256 (256 * 16 + 1))[16]? = some ⟨256 + 256 * 16, 1, some 16⟩ ∧ splitBase.mgmt.mode = .run)
      ∧ ((splitBase.fragmentsOf 256 (256 * 16)).length = 16)
      ∧ ((base.fragmentsOf (256 + 256 * 7) 257).find? (fun g => g.entry.isNone) = some ⟨256 + 256 * 8, 1, none⟩)
      ∧ (base.fragmentsOf (256 + 256 * 3) 257 = [] ++ ⟨256 + 256 * 3, 256, some 0⟩ :: [⟨256 + 256 * 4, 1, some 1⟩]
        ∧ base.acceptsWrites (base.extent 0).slot = true ∧ base.acceptsWrites (base.extent 1).slot = false) := by decide +kernel

/-- `FragmentsCoverTransfer`: one block at the first block of the partition. -/
theorem witness_FragmentsCoverTransfer : 1 ≤ 1 ∧ base.mgmt.setup.first ≤ 256 := by decide

/-- `PassThroughAdmitted`: outside RUN; in RUN just before and just after the partition; when the port may issue and when it may not; a
FLUSH with and without a WRITE in the table; DRAINING with a transfer that holds the drain. -/
theorem witness_PassThroughAdmitted :
    let w := base.holding (moving .write 1 256 9 (some 0) 3)
    let d := w.inMode .draining
    (base.powered = true ∧ base.transfersOk = true ∧ base.transfer 0 = none ∧ base.disk.healthState ≠ .cutoff ∧ base.atRest = true
        ∧ base.mayIssue = true)
      ∧ ((base.resetting 0).atRest = true ∧ (base.resetting 0).mayIssue = false ∧ (base.inMode .config).atRest = true)
      ∧ (base.mgmt.setup.first + 256 * base.mgmt.setup.length ≤ 16640 ∧ 255 + 1 ≤ base.mgmt.setup.first)
      ∧ ((∀ u ∈ base.transfers, u.kind ≠ .write) ∧ w.atRest = true ∧ w.transfersOk = true ∧ w.transfer 0 = none
        ∧ ∃ u ∈ w.transfers, u.kind = .write)
      ∧ (d.mgmt.mode = .draining ∧ d.transfersOk = true ∧ (∃ u ∈ d.transfers, u.handling = .guarded ∧ u.state ≠ .queued)
        ∧ d.mgmt.setup.length = 64 ∧ 16639 < 16640 ∧ d.atRest = true ∧ d.transfer 0 = none ∧ d.disk.healthState ≠ .cutoff) := by
  decide +kernel

/-- `ProtectedAdmitted`: a READ over two slots and a WRITE of the last blocks of an OPEN one, issued at once or queued, or held back for an
ENDING session. -/
theorem witness_ProtectedAdmitted :
    let m := (moveBase.holding (moving .read 1 (256 + 256 * 5) 9 (some 1) 3)).issued (.tag 1)
    let ends : State := { m with session := { m.session with state := .ending } }
    [base, base.resetting 0, ends].all (fun s =>
      s.powered && s.transfersOk && s.tablesOk && (s.transfer 3).isNone && s.disk.healthState ≠ .cutoff && s.mgmt.mode = .run
        && s.atRest && s.mgmt.setup.first ≤ 256 && 16384 + 256 ≤ s.mgmt.setup.first + 256 * s.mgmt.setup.length
        && (s.fragmentsOf 256 16384).length ≤ 16
        && s.fragmentsOf (256 + 256 * 3) 256 = [⟨256 + 256 * 3, 256, some 0⟩] && s.acceptsWrites (s.extent 0).slot) = true := by
  decide +kernel

/-- `ManagementAdmission`: STARTING, a request in progress, another MREQ, neither. -/
theorem witness_ManagementAdmission :
    let asked : State := { base with mgmt := { base.mgmt with request := some ⟨8, 3, .slotOpen 0⟩ } }
    ((base.inMode .starting).powered = true ∧ (base.inMode .starting).transfer 3 = none ∧ (base.inMode .starting).mgmt.mode = .starting)
      ∧ (asked.transfer 3 = none ∧ asked.mgmt.request.isSome = true)
      ∧ (base.served.transfer 3 = none ∧ ∃ u ∈ base.served.transfers, u.kind = .mreq)
      ∧ (base.transfer 3 = none ∧ base.mgmt.mode ≠ .starting ∧ base.mgmt.request = none ∧ (∀ u ∈ base.transfers, u.kind ≠ .mreq)) := by
  decide +kernel

/-- `MrspDeliversCopy`: a response with a full body and none; the delivery. -/
theorem witness_MrspDeliversCopy :
    let r : Response := { kind := 6, number := 1, result := .ok, body := List.replicate 480 1 }
    let s : State := { base with mgmt := { base.mgmt with response := some r } }
    let u : Transfer := { tag := 2, kind := .mrsp, handling := .management, state := .active, output := [⟨8, .relayed⟩] }
    (s.powered = true ∧ s.transfer 2 = none ∧ s.mgmt.mode ≠ .starting ∧ s.mgmt.response = some r ∧ r.body.length ≤ 480
        ∧ base.mgmt.response = none)
      ∧ ((base.holding u).transfersOk = true ∧ (base.holding u).transfer 2 = some u ∧ (base.holding u).atRest = true) := by
  decide +kernel

/-- The part that serves `carrier`'s request. -/
theorem witness_serving : base.served.serving carrier = true := by decide +kernel

/-- A request block with this kind, body length and item count. -/
def requestBlock (kind length items : Nat) : Block := BitVec.ofNat 4096 (kind + 2 ^ 16 * 7 + 2 ^ 32 * length + 2 ^ 48 * items)

/-- `RequestBlockTaken`: the first kinds outside the catalogue; each kind with the body length it requires and one below; a length of 480 and
481; item counts at their edges. -/
theorem witness_RequestBlockTaken :
    let kinds : List (Nat × Nat) := [(0, 0), (0x1A, 0), (1, 0), (2, 1), (3, 15), (4, 0), (5, 0), (6, 0), (7, 0), (8, 7), (9, 1), (10, 1), (11, 1),
      (12, 2), (13, 7), (16, 3), (17, 11), (18, 1), (19, 0), (20, 66), (21, 0), (22, 0), (23, 0), (24, 0), (25, 4)]
    base.served.serving carrier = true
      ∧ (kinds.flatMap (fun (k : Nat × Nat) => [(k.1, k.2, 0), (k.1, k.2 - 1, 0), (k.1, 480, 0), (k.1, 481, 0)])
          ++ [(14, 480, 30), (14, 479, 30), (14, 0, 0), (14, 480, 31), (15, 2, 1), (15, 1, 1), (15, 400, 200), (15, 399, 200), (15, 480, 0),
            (15, 480, 201)]).all (fun x =>
          let b := requestBlock x.1 x.2.1 x.2.2
          field b 0 2 = x.1 && field b 4 2 = x.2.1 && field b 6 2 = x.2.2) = true := by decide +kernel

/-- `ViewsReport`, and a response with a full body. -/
theorem witness_ViewsReport : base.served.serving carrier = true
    ∧ ({ kind := 6, number := 1, result := .ok, body := List.replicate 480 1 } : Response).body.length ≤ 480 := by decide +kernel

/-- `SlotsAndMapReported`: the numbers at the edges of each range. -/
theorem witness_SlotsAndMapReported :
    base.served.serving carrier = true ∧ 67 < 68 ∧ 63 ≤ 63 ∧ (64 ≤ 64 ∧ 67 ≤ 67) ∧ (68 < 69 ∧ 68 ≤ 68) ∧ (2047 < 2048 ∧ 2047 ≤ 2047)
      ∧ (30 < 31 ∧ 30 ≤ 30) := ⟨witness_serving, by decide⟩

/-- `ModeChanges`: each mode, a partition of no chunks, a session, a transfer that holds the drain and a QUEUED one, an empty part. -/
theorem witness_ModeChanges :
    let blank : State := { base.inMode .config with mgmt := { (base.inMode .config).mgmt with setup := {} } }
    let busy := ((base.holding (moving .write 1 256 9 (some 0) 3)).queueing).served
    (∀ m ∈ [Mode.config, .draining, .run], (base.inMode m).served.serving carrier = true ∧ (base.inMode m).served.mgmt.mode = m)
      ∧ (blank.served.serving carrier = true ∧ blank.mgmt.setup.length = 0 ∧ blank.mgmt.mode = .config)
      ∧ (0 < (base.inMode .config).mgmt.setup.length
        ∧ ({ (base.inMode .config).served with mgmt := { (base.inMode .config).served.mgmt with mode := .run } } : State).atRest = true)
      ∧ (moveBase.served.serving carrier = true ∧ moveBase.session.slot.isSome = true)
      ∧ (busy.serving carrier = true ∧ (∃ u ∈ busy.transfers, u.handling = .guarded ∧ u.state ≠ .queued)
        ∧ ∃ u ∈ busy.transfers, u.handling = .guarded ∧ u.state = .queued)
      ∧ ((∀ u ∈ base.served.transfers, u.handling ≠ .guarded) ∧ base.served.jobs.queue = []) := by decide +kernel

/-- `SetupStored`: outside CONFIG; in CONFIG a first block that is no multiple of 256, a partition one chunk too far, one that ends at the
last block. -/
theorem witness_SetupStored :
    let c := (base.inMode .config).served
    (base.served.serving carrier = true ∧ base.mgmt.mode ≠ .config)
      ∧ (c.serving carrier = true ∧ c.mgmt.mode = .config ∧ ¬(255 % 256 = 0) ∧ ¬(281474976710400 + 256 * 2 ≤ 281474976710656))
      ∧ (281474976710400 % 256 = 0 ∧ 1 ≤ 16777216 ∧ 281474976710400 + 256 * 1 ≤ 281474976710656)
      ∧ ({ c with mgmt := { c.mgmt with setup := ⟨281474976710400, 1, 1, 0, 15, 255, 8⟩ }, extents := [] } : State).atRest = true := by
  decide +kernel

/-- `RestartActs`: a part with a transfer, a job and a session. -/
theorem witness_RestartActs :
    let s := (((moveBase.holding (moving .read 4 256 9 (some 0) 0)).issued (.tag 4)).jobbed [runner .cipher]).served
    s.serving carrier = true ∧ s.isOutstanding (.tag 15) = false ∧ s.disk.link ≠ .resetting := by decide +kernel

/-- `ClockAdvanceTaken`: one below, at and one above the count, the writer idle and busy. -/
theorem witness_ClockAdvanceTaken :
    (base.served.serving carrier = true ∧ 103 < base.served.clock.minutes ∧ 104 = base.served.clock.minutes
        ∧ base.served.clock.minutes < 105 ∧ base.served.store.writer = none ∧ base.served.store.queue = [])
      ∧ ((base.storing ⟨.slot 3, .slot {}, false, false, 0⟩).served.serving carrier = true
        ∧ (base.storing ⟨.slot 3, .slot {}, false, false, 0⟩).served.store.writer.isSome = true) := by decide +kernel

/-- The state with every recording slot FINISHED. -/
def fullBase : State := { base with recs := (List.range 64).map fun n => (n, { state := .finished }) }

/-- `SlotOpenTested` and `SlotOpenTaken`: numbers 63, 64, 254 and "any", classes 0 to 3, expiry minutes at and above the count, a slot that is not EMPTY, no
slot EMPTY, slot 63 and the lowest EMPTY one, with the writer idle and busy. -/
theorem witness_SlotOpenTaken :
    (base.served.serving carrier = true ∧ base.served.clock.minutes = 104)
      ∧ ((base.recSlot 0).state ≠ .empty ∧ (base.recSlot 63).state = .empty)
      ∧ (base.recSlot 3).state = .empty ∧ (∀ k, k < 3 → (base.recSlot k).state ≠ .empty)
      ∧ (base.served.store.writer = none ∧ base.served.store.queue = [])
      ∧ ((base.storing ⟨.slot 3, .slot {}, false, false, 0⟩).served.serving carrier = true)
      ∧ (fullBase.served.serving carrier = true ∧ (List.range 64).all (fun n => (fullBase.recSlot n).state ≠ .empty) = true) := by
  decide +kernel

/-- `SlotOpenTested`. -/
theorem witness_SlotOpenTested : fullBase.served.serving carrier = true ∧ base.served.serving carrier = true :=
  ⟨witness_SlotOpenTaken.2.2.2.2.2.1, witness_SlotOpenTaken.1.1⟩

/-- `SlotFinishTaken`: a number above 67, a ring, a slot that is not OPEN, a job's target, writes in flight, none; the end of the last WRITE
in flight with the finish pending. -/
theorem witness_SlotFinishTaken :
    let aimed := (base.jobbed [runner .read]).served
    let w := fun (n : Nat) => (base.setRec 0 { base.recSlot 0 with inFlight := n }).served
    let u : Transfer := { moving .write 1 256 9 (some 0) 3 with writeSlots := [0] }
    let p := (((base.setRec 0 { base.recSlot 0 with finishPending := true, inFlight := 1 }).holding u).issued (.tag 1))
    (base.served.serving carrier = true ∧ (base.served.recSlot 1).state ≠ .opened ∧ (base.served.recSlot 0).state = .opened)
      ∧ (aimed.serving carrier = true ∧ ∃ j ∈ aimed.jobs.queue, j.target = 0)
      ∧ ((w 1).serving carrier = true ∧ 0 < ((w 1).recSlot 0).inFlight ∧ ((w 0).recSlot 0).inFlight = 0
        ∧ ∀ j ∈ (w 0).jobs.queue, j.target ≠ 0)
      ∧ (p.powered = true ∧ p.transfersOk = true ∧ p.mgmt.mode ≠ .draining ∧ p.transfer 1 = some u ∧ p.isOutstanding (.tag 1) = true
        ∧ (p.recSlot 0).state = .opened ∧ (p.recSlot 0).finishPending = true ∧ (p.recSlot 0).inFlight = 1) := by decide +kernel

/-- `SlotDropErases`: number 68, an EMPTY slot and ring, an ERASING slot and ring, OPEN, FINISHED and MOVING slots, a session on the slot, a
job that aims at it. -/
theorem witness_SlotDropErases :
    let gone := (base.setRing 67 { state := .erasing }).served
    let aimed := (base.jobbed [{ runner .idle with state := .waiting }]).served
    (base.served.serving carrier = true ∧ 67 < 68 ∧ (base.served.recSlot 63).state = .empty ∧ (base.served.ring 65).state = .empty
        ∧ (base.served.recSlot 2).state = .erasing ∧ (base.served.recSlot 0).state = .opened ∧ (base.served.recSlot 1).state = .finished
        ∧ base.served.tablesOk = true ∧ base.served.jobs.queue = [] ∧ base.served.mgmt.mode ≠ .draining)
      ∧ (gone.serving carrier = true ∧ (gone.ring 67).state = .erasing)
      ∧ (moveBase.served.serving carrier = true ∧ (moveBase.served.recSlot 1).state = .moving ∧ moveBase.served.session.slot = some 1
        ∧ moveBase.served.session.state ≠ .idle)
      ∧ (aimed.serving carrier = true ∧ aimed.jobsOk = true ∧ aimed.jobOutstanding = false
        ∧ aimed.headJob = some { runner .idle with state := .waiting }) := by decide +kernel

/-- `RingDropErases`: a ring whose entry is in use, and one whose entries are not. -/
theorem witness_RingDropErases :
    let s := base.served
    let used := (base.setExtent 2 { base.extent 2 with inUse := 1 }).served
    (s.serving carrier = true ∧ (s.ring 64).state = .running ∧ s.keysOk = true ∧ s.tablesOk = true ∧ s.jobs.queue = []
        ∧ s.mgmt.mode ≠ .draining ∧ s.extents.all (fun x => x.2.slot ≠ 64 || (x.2.state = .valid && x.2.inUse = 0)) = true)
      ∧ (used.serving carrier = true ∧ used.keysOk = true ∧ used.tablesOk = true ∧ (used.extent 2).slot = 64
        ∧ (used.extent 2).state = .valid ∧ (used.extent 2).inUse ≠ 0) := by decide +kernel

/-- `RingOpenTaken`: numbers 63 and 68, a window of 0, sizes 0, 131,072 and 131,073, class 3, a ring that is not EMPTY, "any", a tag store
without room and one whose first fit is 0. -/
theorem witness_RingOpenTaken :
    let four : State := { base with rings := [64, 65, 66, 67].map fun n => (n, { state := .running, window := 1, size := 1, tagStart := n }) }
    let whole : State := { base with rings := [(66, { state := .running, window := 1, size := 131072 })] }
    (case331.served.serving carrier = true ∧ (case331.served.ring 65).state ≠ .empty ∧ (case331.served.ring 64).state = .empty
        ∧ (case331.served.ring 67).state = .empty)
      ∧ (four.served.serving carrier = true ∧ ∀ n ∈ [64, 65, 66, 67], (four.served.ring n).state ≠ .empty)
      ∧ (whole.served.serving carrier = true ∧ (whole.served.ring 64).state = .empty ∧ (whole.served.ring 66).size = 131072
        ∧ (whole.served.ring 66).tagStart = 0)
      ∧ (∀ k ∈ [64, 65, 66, 67], (case331.ring k).state ≠ .empty → 0 + 40000 ≤ (case331.ring k).tagStart) := by decide +kernel

/-- `ExtentMapChanges`: counts at their edges and lists as long as their counts. -/
theorem witness_ExtentMapChanges :
    base.served.serving carrier = true ∧ (30 < 31 ∧ 30 ≤ 30) ∧ (List.replicate 30 (⟨7, 32, 1, 0, 0⟩ : ExtentDesc)).length = 30
      ∧ ([] : List ExtentDesc).length < 1 ∧ (1 ≤ 200 ∧ 200 < 201) ∧ (List.replicate 200 0).length = 200 :=
  ⟨witness_serving, by decide, List.length_replicate, by decide, by decide, List.length_replicate⟩

/-- A WAITING job of a number. -/
def waiting (n : Nat) : Job := { runner .idle with number := n, state := .waiting, fence := none, forcedSequence := none, chunkEpoch := none }

/-- The state with eight WAITING jobs or fewer, in CONFIG. -/
def queueOf (n : Nat) : State := ((base.inMode .config).jobbed ((List.range n).map fun i => waiting (i + 1))).served

/-- `JobAdopted`: numbers out of range, slots that are not ready, classes that do not agree, counts and ordinals at their edges, a full
queue, a queue of 5 (the sixth reaches the warning level) and of 4, an empty queue in CONFIG and in RUN, with 8 LIVE epochs and with room. -/
theorem witness_JobAdopted :
    let once := (base.setRing 64 { base.ring 64 with cls := .once }).served
    let eight := ({ base with clock := { base.clock with minutes := 104 }, rings := [(64, { base.ring 64 with epochs := eightLive, lastSerial := some 7 })] }).served
    (base.served.serving carrier = true ∧ (base.served.ring 64).state = .running ∧ (base.served.recSlot 0).state = .opened
        ∧ (base.served.recSlot 1).state ≠ .opened ∧ (base.served.ring 64).cls ≠ .never ∧ (base.served.ring 64).size = 16)
      ∧ (once.serving carrier = true ∧ (once.ring 64).cls = .once ∧ (once.recSlot 0).cls = .free)
      ∧ ([0, 4, 5].all fun n => (queueOf n).serving carrier && (queueOf n).jobs.queue.length = n && (queueOf n).atRest
          && (queueOf n).jobs.queue.all fun j => j.number ≠ 9) = true
      ∧ ((queueOf 8).serving carrier = true ∧ 8 ≤ (queueOf 8).jobs.queue.length)
      ∧ (base.served.atRest = true ∧ base.served.jobs.queue = [] ∧ base.served.mgmt.mode = .run
        ∧ base.served.disk.healthState = .normal ∧ 1 ≤ base.served.mgmt.setup.bgLimit
        ∧ (base.served.ring 64).liveEpochs.length < 8 ∧ (base.served.ring 64).isSweeping 4 = false
        ∧ base.served.reverseLookup 64 15 = some (2, 31))
      ∧ (eight.serving carrier = true ∧ eight.atRest = true ∧ 8 ≤ (eight.ring 64).liveEpochs.length) := by decide +kernel

/-- `JobCancelled`: no such job, an ENDING one, a WAITING one behind it, a RUNNING one with and without its command outstanding. -/
theorem witness_JobCancelled :
    let ends : State := ((base.jobbed [{ runner .read with state := .ending, outcome := some .aborted }, waiting 2]).issued .job (some .read)).served
    let runs := (base.jobbed [runner .cipher]).served
    let reads := ((base.jobbed [runner .read]).issued .job (some .read)).served
    (ends.serving carrier = true ∧ ends.jobsOk = true ∧ ends.atRest = true ∧ (∀ j ∈ ends.jobs.queue, j.number ≠ 3)
        ∧ (waiting 2) ∈ ends.jobs.queue ∧ (waiting 2).state = .waiting)
      ∧ (runs.serving carrier = true ∧ runs.jobsOk = true ∧ runs.headJob = some (runner .cipher) ∧ runs.jobOutstanding = false)
      ∧ (reads.serving carrier = true ∧ reads.jobsOk = true ∧ reads.headJob = some (runner .read) ∧ reads.jobOutstanding = true) := by
  decide +kernel

/-- `ExportOpened`: the mode, the numbers, a session, a slot that is not FINISHED, a class that is not FREE, floors below and at the length, a
record of format 2 and one that unwraps to the key 9, whatever the fused transport key is. -/
theorem witness_ExportOpened :
    let once := (base.setRec 1 { base.recSlot 1 with cls := .once }).served
    let done := (base.setRec 1 { base.recSlot 1 with floor := 4 }).served
    ((base.inMode .config).served.serving carrier = true ∧ (base.inMode .config).mgmt.mode ≠ .run)
      ∧ (base.served.serving carrier = true ∧ base.served.mgmt.mode = .run ∧ base.served.session.state = .idle
        ∧ (base.served.recSlot 0).state ≠ .finished ∧ (base.served.recSlot 1).state = .finished ∧ (base.served.recSlot 1).cls = .free
        ∧ (base.served.recSlot 1).floor < (base.served.recSlot 1).length)
      ∧ (moveBase.served.serving carrier = true ∧ moveBase.served.session.state ≠ .idle)
      ∧ (once.serving carrier = true ∧ (once.recSlot 1).cls ≠ .free)
      ∧ (done.serving carrier = true ∧ (done.recSlot 1).length ≤ (done.recSlot 1).floor)
      ∧ (field (2 : KeyRecord) 0 1 ≠ 1) ∧ unwrapRecord (keyRecordOf 9) = some 9 :=
  ⟨by decide +kernel, by decide +kernel, by decide +kernel, by decide +kernel, by decide +kernel, by decide +kernel,
    unwrapRecord_keyRecordOf 9⟩

/-- `ExportEnded`: no session, an ENDING one, an ACTIVE one with a READ of its slot in flight and with none. -/
theorem witness_ExportEnded :
    let r := moving .read 1 (256 + 256 * 5) 9 (some 1) 3
    let reads := ((moveBase.holding r).issued (.tag 1)).served
    let ends : State := { reads with session := { reads.session with state := .ending } }
    (base.served.serving carrier = true ∧ base.served.session.state = .idle)
      ∧ (ends.serving carrier = true ∧ ends.session.state = .ending)
      ∧ (reads.serving carrier = true ∧ reads.session.state = .active ∧ reads.session.slot = some 1 ∧ reads.atRest = true
        ∧ r ∈ reads.transfers ∧ r.state ≠ .queued ∧ r.kind = .read ∧ r.fragments = [⟨256 + 256 * 5, 9, some 1⟩]
        ∧ (reads.extent 1).slot = 1)
      ∧ (moveBase.served.serving carrier = true ∧ moveBase.served.atRest = true ∧ moveBase.served.session.state = .active
        ∧ (moveBase.served.recSlot 1).state = .moving
        ∧ ∀ u ∈ moveBase.served.transfers, u.kind ≠ .read) := by decide +kernel

/-- `LinkRestoreBegins`: a link being reset and one that is UP with a command outstanding. -/
theorem witness_LinkRestoreBegins :
    let r := (base.resetting 3).served
    let u := ((base.holding (moving .read 1 256 9 (some 0) 3)).issued (.tag 1)).served
    (r.serving carrier = true ∧ r.disk.link = .resetting ∧ r.atRest = true)
      ∧ (u.serving carrier = true ∧ u.disk.link ≠ .resetting ∧ u.isOutstanding (.tag 1) = true) := by decide +kernel

/-- A part at work, with an MREQ, a transfer, a job and a session, and a tick in its queue. -/
def atWork : State :=
  { (((moveBase.holding (moving .read 4 256 9 (some 0) 0)).issued (.tag 4)).jobbed [runner .cipher, waiting 2]).served with
    pending := [.tick] }

/-- The part at work takes a step. -/
theorem witness_step : ∃ t, step atWork = .next t :=
  match h : step atWork with
  | .next t => ⟨t, rfl⟩
  | .fault r => nomatch r
  | .refused r => by
      have e : (match step atWork with | .next _ => true | _ => false) = true := by decide +kernel
      rw [h] at e
      cases e

/-- `TransferLawKept`. -/
theorem witness_TransferLawKept : atWork.transfersOk = true ∧ ∃ t, step atWork = .next t := ⟨by decide +kernel, witness_step⟩

/-- `IssueLawKept`. -/
theorem witness_IssueLawKept : (atWork.transfersOk = true ∧ atWork.issueOk = true) ∧ ∃ t, step atWork = .next t :=
  ⟨by decide +kernel, witness_step⟩

/-- `UnitLawsKept`. -/
theorem witness_UnitLawsKept :
    (atWork.jobsOk = true ∧ atWork.tablesOk = true ∧ atWork.countsOk = true) ∧ ∃ t, step atWork = .next t :=
  ⟨by decide +kernel, witness_step⟩

/-- `KeyLawKept`. -/
theorem witness_KeyLawKept : (atWork.keysOk = true ∧ atWork.sessionOk = true) ∧ ∃ t, step atWork = .next t :=
  ⟨by decide +kernel, witness_step⟩

/-- `MapLawsKept`. -/
theorem witness_MapLawsKept :
    (atWork.extentsDisjoint = true ∧ atWork.transfersOk = true ∧ atWork.namesOk = true ∧ atWork.rangesOk = true)
      ∧ ∃ t, step atWork = .next t := ⟨by decide +kernel, witness_step⟩

/-- `TimeLawsKept`: the law of the epochs, and a count at its end with a command that is none of power and loading. -/
theorem witness_TimeLawsKept :
    (atWork.epochsOk = true ∧ ∃ t, step atWork = .next t) ∧ atWork.clock.minutes ≤ 4294967295
      ∧ (∀ speed, Instr.minuteEvent ≠ .powerOn speed) ∧ Instr.minuteEvent ≠ .powerLoss ∧ Instr.minuteEvent ≠ .slotLoad :=
  ⟨⟨by decide +kernel, witness_step⟩, by decide +kernel, nofun, nofun, nofun⟩

end Sys2Proof.Machine
end

section
/-! PROOFS. SLOT-OPEN tested (R24): the choice of a slot, the tests in their order, the record an accepted open writes, and the end of the
MREQ that carries the request. -/

namespace Sys2Proof.Machine

/-! ### What the shared operations leave unchanged -/

/-- The store writer looks at its queue: nothing but the store changes (R38). -/
theorem State.beginWrite_frame (s : State) : s.beginWrite = { s with store := s.beginWrite.store } := by
  unfold State.beginWrite
  split <;> rfl

@[simp] theorem State.recSlot_beginWrite (s : State) (k : Nat) : s.beginWrite.recSlot k = s.recSlot k := by
  rw [State.beginWrite_frame]
  rfl

@[simp] theorem State.recSlot_waitFor (s : State) (w : Wait) (k : Nat) : (s.waitFor w).recSlot k = s.recSlot k := rfl
@[simp] theorem State.recSlot_draw (s : State) (k : Nat) : s.draw.2.recSlot k = s.recSlot k := rfl
@[simp] theorem State.recSlot_deriveSlot (s : State) (n k : Nat) (nonce : Nonce) :
    (s.deriveSlot n nonce).recSlot k = s.recSlot k := rfl

/-- The record of a slot after its own demand, and those of the other slots (R33). -/
theorem State.recSlot_demand_slot (s : State) (n k : Nat) :
    (s.demand (.slot n)).recSlot k = if k = n then { s.recSlot n with persisting := true } else s.recSlot k :=
  State.recSlot_setRec _ n k _

/-- Zero-fill for undelivered blocks writes no slot record. -/
theorem State.withdrawOutput_recs (s : State) (hit : Origin → Bool) (reason : Reason) :
    (s.withdrawOutput hit reason).recs = s.recs := by
  unfold State.withdrawOutput
  dsimp only
  split
  · split
    · split <;> rfl
    · rfl
  · rfl

/-- The look at advance pending writes no slot record (R155). -/
theorem State.checkAdvance_recs (s : State) : s.checkAdvance.recs = s.recs := by
  unfold State.checkAdvance
  split
  · split
    · exact State.withdrawOutput_recs _ _ _
    · rfl
  · rfl

/-- The end of an MREQ leaves every recording slot record as it was. -/
theorem State.recSlot_mreqEnds (s : State) (m : Transfer) (k : Nat) : (s.mreqEnds m).recSlot k = s.recSlot k := by
  unfold State.recSlot State.mreqEnds
  rw [State.checkAdvance_recs]

/-! ### A request in execution (R163, R165) -/

/-- The state in which a request just taken is executed: it is in progress and its response reads PENDING. -/
def State.executing (s : State) (kind number : Nat) : State :=
  { s with mgmt := { s.mgmt with
      request := some { kind, number, wait := .execution }
      response := some { kind, number, result := .pending } } }

@[simp] theorem State.executing_recSlot (s : State) (kind number k : Nat) :
    (s.executing kind number).recSlot k = s.recSlot k := rfl

/-- A request whose execution answers without a body is final at once, and nothing but its response and its MREQ changes. -/
theorem State.finish_answer_executing {s : State} {m : Transfer} (h : s.serving m = true) (kind number : Nat) (result : Result) :
    ((s.executing kind number).answer result).finishTransfer m none = s.finalAtOnce m { kind, number, result } := by
  rw [State.answer_of_request (s.executing kind number) rfl]
  exact State.finish_serving h rfl rfl (fun _ _ => rfl) rfl rfl rfl

/-- SLOT-OPEN on the MREQ in the table: its execution, and the end of the MREQ. -/
theorem exec_slotOpen {s : State} {m : Transfer} (h : s.serving m = true) (number slot cls : Nat) (expiry : Option Nat) :
    exec (.slotOpen number slot cls expiry) s
      = .next (((s.executing 0x08 number).reqSlotOpen slot cls expiry).finishTransfer m none) :=
  State.takeRequest_serving h 0x08 number _

/-! ### The choice of a slot (R24, tests 5 and 6) -/

/-- The number of a recording slot is not "any". -/
theorem ne_anySlot {n : Nat} (h : n ≤ 63) : n ≠ anySlot :=
  fun e => absurd (e ▸ h) (by decide)

theorem chooseSlot_named {numbers : List Nat} {isEmpty : Nat → Bool} {n : Nat} (hn : n ≠ anySlot) (he : isEmpty n = true) :
    chooseSlot numbers isEmpty n = .ok n := by
  simp [chooseSlot, hn, he]

theorem chooseSlot_named_taken {numbers : List Nat} {isEmpty : Nat → Bool} {n : Nat} (hn : n ≠ anySlot) (he : isEmpty n = false) :
    chooseSlot numbers isEmpty n = .error .slotState := by
  simp [chooseSlot, hn, he]

theorem chooseSlot_any_full {numbers : List Nat} {isEmpty : Nat → Bool} (h : ∀ n ∈ numbers, isEmpty n = false) :
    chooseSlot numbers isEmpty anySlot = .error .noRoom := by
  have hf : numbers.find? isEmpty = none := List.find?_eq_none.2 fun n hn => by simp [h n hn]
  simp [chooseSlot, hf]

/-- With "any" the lowest-numbered EMPTY slot is chosen. -/
theorem chooseSlot_any_lowest {isEmpty : Nat → Bool} {bound n : Nat} (hn : n < bound) (he : isEmpty n = true)
    (hlow : ∀ k, k < n → isEmpty k = false) : chooseSlot (List.range bound) isEmpty anySlot = .ok n := by
  have hf : (List.range bound).find? isEmpty = some n :=
    List.find?_range_eq_some.2 ⟨he, List.mem_range.2 hn, fun k hk => by simp [hlow k hk]⟩
  simp [chooseSlot, hf]

/-! ### The tests of R24, one by one -/

/-- What an open does with the choice of a slot: the failed test's result, or the slot chosen opened. -/
def State.openChosen (s : State) (cls : SlotClass) (expiry : Option Nat) : Except Result Nat → State
  | .error result => s.answer result
  | .ok n => s.openRec n cls expiry

section tests

variable (s : State) {slot cls : Nat} {expiry : Option Nat}

/-- A number that passes test 1. -/
theorem not_number_out_of_range (h : slot ≤ 63 ∨ slot = anySlot) : ¬(64 ≤ slot ∧ slot ≠ anySlot) := by
  omega

/-- The codes above that of NEVER name no class. -/
theorem SlotClass.ofCode_none (h : 2 < cls) : SlotClass.ofCode cls = none := by
  match cls, h with
  | _ + 3, _ => rfl

/-- The model's test of the expiry minute, as test 4 words it. -/
theorem expiry_late_iff (minutes : Nat) :
    expiry.any (· ≤ minutes) = true ↔ ¬∀ e, expiry = some e → minutes < e := by
  cases expiry <;> simp

/-- Test 1: a number that is neither that of a recording slot nor "any". -/
theorem State.reqSlotOpen_number (h : 63 < slot) (hany : slot ≠ anySlot) : s.reqSlotOpen slot cls expiry = s.answer .range :=
  if_pos ⟨h, hany⟩

/-- Test 2: class NEVER. -/
theorem State.reqSlotOpen_never (h : slot ≤ 63 ∨ slot = anySlot) : s.reqSlotOpen slot 2 expiry = s.answer .cls :=
  if_neg (not_number_out_of_range h)

/-- Test 3: a code that names no class. -/
theorem State.reqSlotOpen_class (h : slot ≤ 63 ∨ slot = anySlot) (hc : 2 < cls) :
    s.reqSlotOpen slot cls expiry = s.answer .range := by
  unfold State.reqSlotOpen
  rw [if_neg (not_number_out_of_range h), SlotClass.ofCode_none hc]

/-- Class FREE or ONCE: what is left are the tests of the expiry minute and of the slot. -/
theorem State.reqSlotOpen_usable (h : slot ≤ 63 ∨ slot = anySlot) (hc : cls ≤ 1) :
    s.reqSlotOpen slot cls expiry =
      if expiry.any (· ≤ s.clock.minutes) then s.answer .range
      else s.openChosen (if cls = 0 then .free else .once) expiry
        (chooseSlot (List.range 64) (fun n => (s.recSlot n).state = .empty) slot) := by
  match cls, hc with
  | 0, _ | 1, _ => exact if_neg (not_number_out_of_range h)

/-- Test 4: an expiry minute at or below the minute count. -/
theorem State.reqSlotOpen_late (h : slot ≤ 63 ∨ slot = anySlot) (hc : cls ≤ 1)
    (hlate : ¬∀ e, expiry = some e → s.clock.minutes < e) : s.reqSlotOpen slot cls expiry = s.answer .range := by
  rw [s.reqSlotOpen_usable h hc, if_pos ((expiry_late_iff _).2 hlate)]

section chosen

variable (h : slot ≤ 63 ∨ slot = anySlot) (hc : cls ≤ 1) (hin : ∀ e, expiry = some e → s.clock.minutes < e)
include h hc hin

/-- Tests 5 and 6: no slot can be chosen. -/
theorem State.reqSlotOpen_error {result : Result}
    (hs : chooseSlot (List.range 64) (fun n => (s.recSlot n).state = .empty) slot = .error result) :
    s.reqSlotOpen slot cls expiry = s.answer result := by
  rw [s.reqSlotOpen_usable h hc, if_neg (fun hlate => (expiry_late_iff _).1 hlate hin), hs]
  rfl

/-- Every test passed: the slot chosen is opened. -/
theorem State.reqSlotOpen_ok {n : Nat}
    (hs : chooseSlot (List.range 64) (fun n => (s.recSlot n).state = .empty) slot = .ok n) :
    s.reqSlotOpen slot cls expiry = s.openRec n (if cls = 0 then .free else .once) expiry := by
  rw [s.reqSlotOpen_usable h hc, if_neg (fun hlate => (expiry_late_iff _).1 hlate hin), hs]
  rfl

end chosen

end tests

/-! ### An accepted open (R25) -/

/-- What an accepted open can change: draws, recording slot records, keys, the store and the wait of the request. -/
theorem State.openRec_frame (s : State) (n : Nat) (cls : SlotClass) (expiry : Option Nat) :
    let t := s.openRec n cls expiry
    t = { s with draws := t.draws, recs := t.recs, keys := t.keys, store := t.store, mgmt := t.mgmt } := by
  unfold State.openRec State.beginWrite
  dsimp only
  split <;> rfl

/-- The chosen slot's record is OPEN as requested, with a new nonce and its write demanded; every other record stays. -/
theorem State.recSlot_openRec (s : State) (n k : Nat) (cls : SlotClass) (expiry : Option Nat) :
    (s.openRec n cls expiry).recSlot k =
      if k = n then
        { state := .opened, cls, nonce := s.draw.1, expiry, created := s.clock.minutes, persisting := true }
      else s.recSlot k := by
  simp only [State.openRec, State.recSlot_beginWrite, State.recSlot_demand_slot, State.recSlot_waitFor, State.recSlot_deriveSlot,
    State.recSlot_setRec, State.recSlot_draw]
  split <;> rfl

/-- The MREQ of an accepted open ends as that of a request in progress does. -/
theorem State.finish_openRec {s : State} {m : Transfer} (h : s.serving m = true) (number n : Nat) (cls : SlotClass)
    (expiry : Option Nat) :
    ((s.executing 0x08 number).openRec n cls expiry).finishTransfer m none
      = ((s.executing 0x08 number).openRec n cls expiry).mreqEnds m := by
  have hf := (s.executing 0x08 number).openRec_frame n cls expiry
  dsimp only at hf
  rw [hf]
  exact State.finish_serving h rfl rfl (fun _ _ => rfl) rfl rfl rfl

/-! ### The statement -/

/-- A test that fails gives the result, final at once. -/
theorem exec_slotOpen_of_answer {s : State} {m : Transfer} (h : s.serving m = true) {number slot cls : Nat} {expiry : Option Nat}
    {result : Result}
    (hr : (s.executing 0x08 number).reqSlotOpen slot cls expiry = (s.executing 0x08 number).answer result) :
    exec (.slotOpen number slot cls expiry) s = .next (s.finalAtOnce m { kind := 0x08, number, result }) := by
  rw [exec_slotOpen h, hr, State.finish_answer_executing h]

/-- A slot opened: its record is OPEN, and every other recording slot keeps its own. -/
theorem exec_slotOpen_of_openRec {s : State} {m : Transfer} (h : s.serving m = true) {number slot cls n : Nat} {c : SlotClass}
    {expiry : Option Nat}
    (hr : (s.executing 0x08 number).reqSlotOpen slot cls expiry = (s.executing 0x08 number).openRec n c expiry) :
    ∃ t, exec (.slotOpen number slot cls expiry) s = .next t
      ∧ (t.recSlot n).state = .opened ∧ ∀ k, k ≠ n → t.recSlot k = s.recSlot k := by
  refine ⟨_, by rw [exec_slotOpen h, hr, State.finish_openRec h], ?_, fun k hk => ?_⟩
  · rw [State.recSlot_mreqEnds, State.recSlot_openRec, if_pos rfl]
  · rw [State.recSlot_mreqEnds, State.recSlot_openRec, if_neg hk, State.executing_recSlot]

/-- Settles O41: each clause is one test of R24 failed, or the choice of the slot once every test has passed. -/
theorem slotOpenTested : Obligations.SlotOpenTested := by
  intro s m number slot cls expiry h refused inTime
  refine ⟨fun hn hany => ?test1, fun hslot =>
    ⟨?test2, fun hc => ?test3, fun hc hlate => ?test4, fun hc hin => ⟨fun hn hne => ?test5, ?test6, ?passed⟩⟩⟩
  case test1 => exact exec_slotOpen_of_answer h (State.reqSlotOpen_number _ hn hany)
  case test2 =>
    rintro rfl
    exact exec_slotOpen_of_answer h (State.reqSlotOpen_never _ hslot)
  case test3 => exact exec_slotOpen_of_answer h (State.reqSlotOpen_class _ hslot hc)
  case test4 => exact exec_slotOpen_of_answer h (State.reqSlotOpen_late _ hslot hc hlate)
  case test5 =>
    have hs := chooseSlot_named_taken (numbers := List.range 64) (isEmpty := fun n => (s.recSlot n).state = .empty)
      (n := slot) (ne_anySlot hn) (decide_eq_false hne)
    exact exec_slotOpen_of_answer h ((s.executing 0x08 number).reqSlotOpen_error hslot hc hin hs)
  case test6 =>
    rintro rfl hfull
    have hs := chooseSlot_any_full (numbers := List.range 64) (isEmpty := fun n => (s.recSlot n).state = .empty)
      fun n hn => decide_eq_false (hfull n (Nat.le_of_lt_succ (List.mem_range.1 hn)))
    exact exec_slotOpen_of_answer h ((s.executing 0x08 number).reqSlotOpen_error hslot hc hin hs)
  case passed =>
    intro n hn he hchosen
    have hs : chooseSlot (List.range 64) (fun n => (s.recSlot n).state = .empty) slot = .ok n := by
      rcases hchosen with rfl | ⟨rfl, hlow⟩
      · exact chooseSlot_named (ne_anySlot hn) (decide_eq_true he)
      · exact chooseSlot_any_lowest (Nat.lt_succ_of_le hn) (decide_eq_true he) fun k hk => decide_eq_false (hlow k hk)
    exact exec_slotOpen_of_openRec h ((s.executing 0x08 number).reqSlotOpen_ok hslot hc hin hs)

end Sys2Proof.Machine
end

section
/-! PROOFS. The admission of MREQ and MRSP (R162): the tests in their order, the records an admission adds; and the delivery of an MRSP's
copy (R164), with the state in which the statement about it fails. -/

namespace Sys2Proof.Machine

/-! ### The vendor commands at their arrival -/

/-- What a part with power does at a command. -/
theorem State.whenPowered_of_powered {s : State} (h : s.powered = true) (f : State → State) : s.whenPowered f = .next (f s) := by
  rw [State.whenPowered, if_pos h]

theorem exec_mreq {s : State} (h : s.powered = true) (tag k : Nat) : exec (.mreq tag k) s = .next (s.arriveMreq tag k) :=
  State.whenPowered_of_powered h fun s => s.arriveMreq tag k

theorem exec_mrsp {s : State} (h : s.powered = true) (tag k : Nat) : exec (.mrsp tag k) s = .next (s.arriveMrsp tag k) :=
  State.whenPowered_of_powered h fun s => s.arriveMrsp tag k

theorem exec_blockDelivery {s : State} (h : s.powered = true) (tag : Nat) : exec (.blockDelivery tag) s = .next (s.deliver tag) :=
  State.whenPowered_of_powered h fun s => s.deliver tag

/-- Code 8Bh is an MREQ, whatever the block address (R177). -/
theorem exec_other_mreqCode (s : State) (tag block k : Nat) (d : DataDirection) :
    exec (.other tag mreqCode d (some (block, k))) s = exec (.mreq tag k) s := rfl

/-- Code 8Ch is an MRSP, whatever the block address (R177). -/
theorem exec_other_mrspCode (s : State) (tag block k : Nat) (d : DataDirection) :
    exec (.other tag mrspCode d (some (block, k))) s = exec (.mrsp tag k) s := rfl

/-- There is an MREQ in the table. -/
theorem State.mreqTransfer_isSome (s : State) : s.mreqTransfer.isSome = true ↔ ∃ u ∈ s.transfers, u.kind = .mreq := by
  simp [State.mreqTransfer]

/-! ### The tests of R162 in their order -/

section Admission

variable {s : State} {tag k : Nat}

theorem State.arriveMreq_starting (ht : s.transfer tag = none) (hm : s.mgmt.mode = .starting) :
    s.arriveMreq tag k = s.refuse tag .notReady 0 := by
  simp [State.arriveMreq, ht, hm]

theorem State.arriveMrsp_starting (ht : s.transfer tag = none) (hm : s.mgmt.mode = .starting) :
    s.arriveMrsp tag k = s.refuse tag .notReady 0 := by
  simp [State.arriveMrsp, ht, hm]

theorem State.arriveMreq_form (ht : s.transfer tag = none) (hm : s.mgmt.mode ≠ .starting) (hk : k ≠ 1) :
    s.arriveMreq tag k = s.refuse tag .mgmtForm 0 := by
  simp [State.arriveMreq, ht, hm, hk]

theorem State.arriveMrsp_form (ht : s.transfer tag = none) (hm : s.mgmt.mode ≠ .starting) (hk : k ≠ 1) :
    s.arriveMrsp tag k = s.refuse tag .mgmtForm 0 := by
  simp [State.arriveMrsp, ht, hm, hk]

/-- The third test, of an MREQ only: a request in progress, or another MREQ in the table. -/
theorem State.arriveMreq_busy (ht : s.transfer tag = none) (hm : s.mgmt.mode ≠ .starting)
    (hb : s.mgmt.request.isSome = true ∨ ∃ u ∈ s.transfers, u.kind = .mreq) :
    s.arriveMreq tag 1 = s.refuse tag .mgmtBusy 0 := by
  rw [← s.mreqTransfer_isSome, ← Bool.or_eq_true] at hb
  simp [State.arriveMreq, ht, hm, hb]

theorem State.arriveMreq_admitted (ht : s.transfer tag = none) (hm : s.mgmt.mode ≠ .starting) (hr : s.mgmt.request = none)
    (hu : ∀ u ∈ s.transfers, u.kind ≠ .mreq) :
    s.arriveMreq tag 1 = s.addTransfer { tag, kind := .mreq, handling := .management, state := .active } := by
  have hn : s.mreqTransfer.isSome = false := by
    rw [Bool.eq_false_iff, ne_eq, s.mreqTransfer_isSome]
    rintro ⟨u, hmem, hkind⟩
    exact hu u hmem hkind
  simp [State.arriveMreq, ht, hm, hr, hn]

/-- An admitted MRSP carries the response block as it stands (R164). -/
theorem State.arriveMrsp_admitted (ht : s.transfer tag = none) (hm : s.mgmt.mode ≠ .starting) :
    s.arriveMrsp tag 1 = s.addTransfer
      { tag, kind := .mrsp, handling := .management, state := .active, output := [⟨responseBlock s.mgmt.response, .relayed⟩] } := by
  simp [State.arriveMrsp, ht, hm]

end Admission

/-- Settles O32: each clause is one test of R162, or the admission once every test has passed. -/
theorem managementAdmission : Obligations.ManagementAdmission := by
  intro s tag k hp ht refused
  refine ⟨fun d block => ⟨exec_other_mreqCode s tag block k d, exec_other_mrspCode s tag block k d⟩,
    fun hm => ⟨?mreqStarting, ?mrspStarting⟩,
    fun hm => ⟨fun hk => ⟨?mreqForm, ?mrspForm⟩, fun hb => ?mreqBusy, fun hr hu => ?mreqAdmitted, responseBlock s.mgmt.response, ?mrspAdmitted⟩⟩
  case mreqStarting => exact (exec_mreq hp tag k).trans (congrArg _ (State.arriveMreq_starting ht hm))
  case mrspStarting => exact (exec_mrsp hp tag k).trans (congrArg _ (State.arriveMrsp_starting ht hm))
  case mreqForm => exact (exec_mreq hp tag k).trans (congrArg _ (State.arriveMreq_form ht hm hk))
  case mrspForm => exact (exec_mrsp hp tag k).trans (congrArg _ (State.arriveMrsp_form ht hm hk))
  case mreqBusy => exact (exec_mreq hp tag 1).trans (congrArg _ (State.arriveMreq_busy ht hm hb))
  case mreqAdmitted => exact (exec_mreq hp tag 1).trans (congrArg _ (State.arriveMreq_admitted ht hm hr hu))
  case mrspAdmitted => exact (exec_mrsp hp tag 1).trans (congrArg _ (State.arriveMrsp_admitted ht hm))

/-! ### A delivery that ends the drain

The statement asks that the delivery of an MRSP's copy leave the management unit of a part at rest as it is. It fixes the kind of the record,
its output and the law of the transfer table, but not the handling. The admission gives an MRSP the handling MANAGEMENT (R162,
`State.arriveMrsp_admitted`), yet a record of kind MRSP with handling PROTECTED meets every hypothesis too. In DRAINING such a record holds up
the drain (R169), so that its completion takes the mode to CONFIG. -/

/-- An ACTIVE record of kind MRSP whose handling is PROTECTED, with its copy waiting. -/
def guardedMrsp : Transfer :=
  { tag := 2, kind := .mrsp, handling := .guarded, state := .active, output := [⟨zeroBlock, .relayed⟩] }

/-- A part in DRAINING whose table holds that record alone. -/
def heldDrain : State := { mgmt := { mode := .draining, loading := .finished }, transfers := [guardedMrsp] }

/-- The part meets the hypotheses of the statement, and is at rest. -/
theorem heldDrain_atRest : heldDrain.transfersOk = true ∧ heldDrain.transfer 2 = some guardedMrsp ∧ heldDrain.atRest = true := by
  decide +kernel

/-- The delivery of the copy ends the drain (R169). -/
theorem heldDrain_delivered_mode : (heldDrain.deliver 2).mgmt.mode = .config := by decide +kernel

/-- Refutes O33: in `heldDrain` the delivery of the copy changes the mode, which is state of the management unit, though the part is at rest.
It is the last clause that fails, by a record whose handling no admission gives an MRSP. -/
theorem not_mrspDeliversCopy : ¬ Obligations.MrspDeliversCopy := by
  intro h
  obtain ⟨hok, hu, hrest⟩ := heldDrain_atRest
  obtain ⟨-, -, hdelivery⟩ := h heldDrain 2 rfl
  obtain ⟨t, hexec, -, -, hkeeps⟩ := hdelivery guardedMrsp ⟨zeroBlock, .relayed⟩ hok hu rfl rfl rfl
  have ht : heldDrain.deliver 2 = t := Host.Outcome.next.inj ((exec_blockDelivery rfl 2).symm.trans hexec)
  have hmode : heldDrain.mgmt.mode = .config := by rw [← hkeeps hrest, ← ht, heldDrain_delivered_mode]
  exact absurd hmode (by decide)

end Sys2Proof.Machine
end
